-- ==== Sys2Proof/Word.lean ====
section
/-! DEFINITION. The word types of the wire format and their signed reading (00_scope.md R10). -/

namespace Sys2Proof

/-- A byte, 0 to 255 (R10). -/
abbrev Byte := BitVec 8

/-- A 16-bit signed two's-complement field; its number is `BitVec.toInt` (R10). -/
abbrev I16 := BitVec 16

/-- A 16-bit unsigned field; its number is `BitVec.toNat` (R10). -/
abbrev U16 := BitVec 16

/-- A 32-bit signed two's-complement field; its number is `BitVec.toInt` (R10). -/
abbrev I32 := BitVec 32

/-- R10: `toS16(u) = if u < 32768 then u else u − 65536`. -/
def toS16 (u : Nat) : Int := if u < 32768 then u else u - 65536

/-- R10: `toS32(u) = if u < 2147483648 then u else u − 4294967296`. -/
def toS32 (u : Nat) : Int := if u < 2147483648 then u else u - 4294967296

end Sys2Proof
end

