-- ==== Sys2Proof/Config.lean ====
section
/-! DEFINITION. The constants of 00_scope.md R8, each literal written once (93_implementation_defined.md U1: a corrected
literal is a one-line change) and what R8 derives computed from them, and the one implementation parameter BUF_MAX (R9). XSP has no free value (10_state.md R34). -/

namespace Sys2Proof

/-- BUF_MAX, the capacity of the AccumulationBuffer: a natural number or ∞ (R9). -/
inductive BufMax where
  | infinite
  | finite (n : Nat)
  deriving DecidableEq, Repr

/-- What is fixed when the block is built (R9, R12). -/
structure Config where
  bufMax : BufMax
  deriving DecidableEq, Repr

namespace Config

/-- `HDR`, the header marker in arrival order (R8, R61). -/
def hdr : List Byte := [0x01, 0x02, 0x03, 0x04]

/-- `FTR`, the footer marker in arrival order (R8, R61). -/
def ftr : List Byte := [0x40, 0x30, 0x20, 0x10]

/-- The last byte of `HDR`, the byte whose arrival completes a header (R61, R90). -/
def hdrLast : Byte := hdr.getLast (by decide)

/-- The last byte of `FTR`, the byte whose arrival completes a footer (R61, R89). -/
def ftrLast : Byte := ftr.getLast (by decide)

/-- `MARK_LEN`. -/
@[simp] abbrev markLen : Nat := 4
/-- `OFF_TYPE`. -/
@[simp] abbrev offType : Nat := 0x04
/-- `OFF_SEQ`. -/
@[simp] abbrev offSeq : Nat := 0x06
/-- `OFF_TS`. -/
@[simp] abbrev offTs : Nat := 0x08
/-- `OFF_PAYLOAD`, the length of the MessageHeader. -/
@[simp] abbrev offPayload : Nat := 0x0c
/-- `TYPE_ODOM`. -/
@[simp] abbrev typeOdom : I16 := 0x0001
/-- `TYPE_LASER`. -/
@[simp] abbrev typeLaser : I16 := 0x0005
/-- `TYPE_TEXT`. -/
@[simp] abbrev typeText : I16 := 0x0011
/-- `OFF_LCOUNT`. -/
@[simp] abbrev offLcount : Nat := 0x0c
/-- `OFF_RCOUNT`. -/
@[simp] abbrev offRcount : Nat := 0x10
/-- `OFF_LSPEED`. -/
@[simp] abbrev offLspeed : Nat := 0x14
/-- `OFF_RSPEED`. -/
@[simp] abbrev offRspeed : Nat := 0x16
/-- The denominator of `SPEED_SCALE` = 1/1000 exactly. -/
@[simp] abbrev speedDenominator : Nat := 1000
/-- `OFF_TLEN`. -/
@[simp] abbrev offTlen : Nat := 0x0c
/-- `OFF_TDATA`. -/
@[simp] abbrev offTdata : Nat := 0x10
/-- `OFF_LSTART`. -/
@[simp] abbrev offLstart : Nat := 0x10
/-- `OFF_LPTS`. -/
@[simp] abbrev offLpts : Nat := 0x14
/-- `PT_STRIDE`. -/
@[simp] abbrev ptStride : Nat := 4
/-- `N_PTS`. -/
@[simp] abbrev nPts : Nat := 90
/-- `TABLE_SIZE`. -/
@[simp] abbrev tableSize : Nat := 360
/-- The last start index of a slice, 270: `start_index + N_PTS ≤ TABLE_SIZE` (44_decode_laser.md R147). -/
@[simp] abbrev lastStart : Nat := tableSize - nPts
/-- `VALID_LIMIT`. -/
@[simp] abbrev validLimit : Nat := 512
/-- `MIN_HDR_FRAME` = 12 + 4 = 16, as R8 derives it. -/
@[simp] abbrev minHdrFrame : Nat := offPayload + markLen
/-- `MIN_ODOM_FRAME` = 0x18 + 4 = 28, as R8 derives it: the last field, of 2 bytes, lies before the footer. -/
@[simp] abbrev minOdomFrame : Nat := offRspeed + 2 + markLen
/-- `MIN_TEXT_FRAME` = 0x10 + 4 = 20, as R8 derives it. -/
@[simp] abbrev minTextFrame : Nat := offTdata + markLen
/-- `MIN_LASER_FRAME` = 0x14 + 4×90 + 4 = 384, as R8 derives it. -/
@[simp] abbrev minLaserFrame : Nat := offLpts + ptStride * nPts + markLen

/-- R9: `BUF_MAX ≥ 384`, "so that a laser frame, the longest fixed-length frame, fits". -/
def ok : Config → Bool
  | ⟨.infinite⟩ => true
  | ⟨.finite n⟩ => decide (minLaserFrame ≤ n)

/-- The configuration of `State.reset`: no cap, which reproduces the document's §4.1 (R9).
DESIGN CHOICE, log 1: the spec leaves BUF_MAX open. No statement rests on this value. -/
def initial : Config := ⟨.infinite⟩

end Config

end Sys2Proof
end

