-- ==== Sys2Proof/Machine/Records.lean ====
section
/-! DEFINITION. The records XSP holds and emits: odometry readings, laser points, the MessageHeader, errors, events. -/

namespace Sys2Proof

/-- An OdometryReading: the wheel encoder count and the raw speed, in units of 0.001 (10_state.md R24, R25). -/
structure Odometry where
  count    : I32
  speedRaw : I16
  deriving DecidableEq, Repr

/-- A LaserPoint (10_state.md R26). -/
structure LaserPoint where
  x     : I16
  y     : I16
  valid : Bool
  deriving DecidableEq, Repr

/-- The sensor state: "the only state that outlives a single decode call" (10_state.md R20). -/
structure Sensors where
  left  : Odometry
  right : Odometry
  laser : Vector LaserPoint Config.tableSize
  deriving DecidableEq, Repr

/-- The MessageHeader, the decoded view of frame bytes 4 to 11 (30_encoding.md R62). It is no state (R31). -/
structure MessageHeader where
  type : I16
  seq  : U16
  ts   : I32
  deriving DecidableEq, Repr

/-- What DISPATCH selects (41_decoder_common.md R117). -/
inductive PayloadOp where
  | odom
  | laser
  | text
  | other
  deriving DecidableEq, Repr

/-- The decoded record of a message event (41_decoder_common.md R118). -/
inductive Record where
  | odom (left right : Odometry)
  | text (bytes : List Byte)
  | laser (start : Nat) (pts : Vector LaserPoint Config.nPts)
  | noRecord
  deriving DecidableEq, Repr

/-- The causes of an `Err` event (60_exceptions.md R160). -/
inductive ErrCause where
  | headerMismatch
  | footerMismatch
  | bothMismatch
  | shortFrame
  | textLength
  | laserIndex
  | bufferOverflow
  deriving DecidableEq, Repr

/-- The event a step may produce (41_decoder_common.md R118). -/
inductive Event where
  | msg (header : MessageHeader) (record : Record)
  | err (cause : ErrCause)
  deriving DecidableEq, Repr

end Sys2Proof
end

