-- ==== Sys2Proof/Machine/Operands.lean ====
section
/-! DEFINITION. Reading a frame: the primitives of 41_decoder_common.md R105 to R107, the MessageHeader, one laser point,
and the frame constructor of 30_encoding.md R73. A read that does not lie inside its bytes has no value (R11, R46): it is
`none`, and the meanings turn that into a fault. -/

namespace Sys2Proof

/-- `F[o] + 256·F[o+1]`, little-endian (20_memory.md R41). -/
def unsigned16 (F : List Byte) (o : Nat) : Option Nat := do
  let b0 ← F[o]?
  let b1 ← F[o + 1]?
  return b0.toNat + 256 * b1.toNat

/-- `F[o] + 2^8·F[o+1] + 2^16·F[o+2] + 2^24·F[o+3]`, little-endian (20_memory.md R41). -/
def unsigned32 (F : List Byte) (o : Nat) : Option Nat := do
  let b0 ← F[o]?
  let b1 ← F[o + 1]?
  let b2 ← F[o + 2]?
  let b3 ← F[o + 3]?
  return b0.toNat + 2 ^ 8 * b1.toNat + 2 ^ 16 * b2.toNat + 2 ^ 24 * b3.toNat

/-- R105, the signed 16-bit read. -/
def rd16s (F : List Byte) (o : Nat) : Option I16 := (unsigned16 F o).map (BitVec.ofNat 16)

/-- R106, the signed 32-bit read. -/
def rd32s (F : List Byte) (o : Nat) : Option I32 := (unsigned32 F o).map (BitVec.ofNat 32)

/-- R107, the unsigned view of the 16-bit read, used for the sequence number only: the same bits. -/
def ru16 (F : List Byte) (o : Nat) : Option U16 := (unsigned16 F o).map (BitVec.ofNat 16)

/-- R11 `MemRead(F, off, n)`: the `n` bytes from offset `o`, in offset order. -/
def memRead (F : List Byte) (o n : Nat) : Option (List Byte) :=
  if o + n ≤ F.length then some ((F.drop o).take n) else none

/-- The part of a frame that lies before the footer marker: "every decoder read of n bytes at offset o must satisfy
o + n ≤ len(F) − 4" (20_memory.md R46), so the decoder reads its fields from here. Log 8. -/
def beforeFooter (F : List Byte) : List Byte := F.take (F.length - Config.markLen)

/-- HEADER: type, sequence and timestamp from their fixed offsets (41_decoder_common.md R114). -/
def parseHeader (F : List Byte) : Option MessageHeader := do
  let type ← rd16s F Config.offType
  let seq ← ru16 F Config.offSeq
  let ts ← rd32s F Config.offTs
  return ⟨type, seq, ts⟩

/-- DISPATCH: all 16 bits of the type are compared (30_encoding.md R63, 41_decoder_common.md R117). -/
def dispatch (type : I16) : PayloadOp :=
  if type = Config.typeOdom then .odom
  else if type = Config.typeText then .text
  else if type = Config.typeLaser then .laser
  else .other

/-- `le16(v)`: the two bytes of `v`, least significant first (30_encoding.md R73). -/
def le16 (v : BitVec 16) : List Byte := [v.extractLsb' 0 8, v.extractLsb' 8 8]

/-- `le32(v)`: the four bytes of `v`, least significant first (30_encoding.md R73). -/
def le32 (v : BitVec 32) : List Byte :=
  [v.extractLsb' 0 8, v.extractLsb' 8 8, v.extractLsb' 16 8, v.extractLsb' 24 8]

/-- A body between the two markers. -/
def betweenMarkers (body : List Byte) : List Byte := Config.hdr ++ body ++ Config.ftr

/-- `FRAME(type, seq, ts, payload)` (30_encoding.md R73). -/
def frameOf (h : MessageHeader) (payload : List Byte) : List Byte :=
  betweenMarkers (le16 h.type ++ le16 h.seq ++ le32 h.ts ++ payload)

/-- The speed of a reading, exactly `speed_raw / 1000` (10_state.md R25, 42_decode_odometry.md R128). -/
def speed (r : Odometry) : Rat := (r.speedRaw.toInt : Rat) / (Config.speedDenominator : Rat)

end Sys2Proof
end

