-- ==== Sys2Proof/Machine/Flags.lean ====
section
/-! DEFINITION. Every Boolean XSP computes: the marker tests of the window and of VALIDATE, the overflow test, and the
`valid` flag of a laser point (10_state.md R28: the 360 `valid` bits are the only Boolean state). -/

namespace Sys2Proof

/-- The bytes end with the four bytes `m`: `pos ≥ 3` and `buf1[pos−3..pos] = m` (40_synchronizer.md R87, R88). -/
def endsWith (m bytes : List Byte) : Bool :=
  decide (Config.markLen ≤ bytes.length) && bytes.drop (bytes.length - Config.markLen) == m

/-- The footer test (R89; VALIDATE's second test, R110). -/
def endsWithFooter (bytes : List Byte) : Bool := endsWith Config.ftr bytes

/-- The header test of the window (R90). -/
def endsWithHeader (bytes : List Byte) : Bool := endsWith Config.hdr bytes

/-- VALIDATE's first flag: `¬( n ≥ 4 ∧ F[0..4) = HDR )` (41_decoder_common.md R110, R113). -/
def headerBad (F : List Byte) : Bool :=
  !(decide (Config.markLen ≤ F.length) && F.take Config.markLen == Config.hdr)

/-- VALIDATE's second flag: `¬( n ≥ 4 ∧ F[n−4..n) = FTR )` (41_decoder_common.md R110, R113). -/
def footerBad (F : List Byte) : Bool := !endsWithFooter F

/-- The error that VALIDATE's two flags stand for: code 1, 2 or 3, or none (60_exceptions.md R160). -/
def markerError (headerBad footerBad : Bool) : Option ErrCause :=
  match headerBad, footerBad with
  | false, false => none
  | true, false => some .headerMismatch
  | false, true => some .footerMismatch
  | true, true => some .bothMismatch

/-- `len ≥ BUF_MAX`, never true when `BUF_MAX = ∞` (40_synchronizer.md R88, R93). -/
def full (m : BufMax) (len : Nat) : Bool :=
  match m with
  | .infinite => false
  | .finite n => decide (n ≤ len)

/-- The validity rule: both |x| and |y| below 512, with the mathematical absolute value (44_decode_laser.md R149). -/
def pointValid (x y : I16) : Bool :=
  decide (x.toInt.natAbs < Config.validLimit) && decide (y.toInt.natAbs < Config.validLimit)

/-- The numeric code of an error, 3 bits (60_exceptions.md R160). -/
def ErrCause.code : ErrCause → BitVec 3
  | .headerMismatch => 1
  | .footerMismatch => 2
  | .bothMismatch => 3
  | .shortFrame => 4
  | .textLength => 5
  | .laserIndex => 6
  | .bufferOverflow => 7

end Sys2Proof
end

