-- ==== Sys2Proof/Syntax.lean ====
section
/-! DEFINITION. The operations of XSP: one constructor per row of spec/opcode_table.json (30_encoding.md R75).
"Operations" stands where an ISA would say "instructions" (spec/INDEX.md). -/

namespace Sys2Proof

/-- The operations. The four `sync` rows are the classes of the synchronizer's window; a `dec` row that a frame selects
carries the fields of that frame (R73: the frame is HDR, type, seq, ts, payload, FTR), so that every value of an operand
is a frame of that row; the common steps of the decoder and the read primitives carry what the spec names as their operands. -/
inductive Instr where
  /-- SYNC.FOOTER (R89). The byte accepted is the footer's last. -/
  | syncFooter
  /-- SYNC.HEADER (R90). The byte accepted is the header's last. -/
  | syncHeader
  /-- SYNC.OVERFLOW (R93): the byte accepted. -/
  | syncOverflow (b : Byte)
  /-- SYNC.ACCUM (R91): the byte accepted. -/
  | syncAccum (b : Byte)
  /-- DEC.ODOM (R127): a frame of type 0x0001. -/
  | decOdom (seq : U16) (ts : I32) (payload : List Byte)
  /-- DEC.LASER (R151): a frame of type 0x0005. -/
  | decLaser (seq : U16) (ts : I32) (payload : List Byte)
  /-- DEC.TEXT (R138): a frame of type 0x0011. -/
  | decText (seq : U16) (ts : I32) (payload : List Byte)
  /-- DEC.OTHER (R119): a frame of any other type. -/
  | decOther (type : I16) (seq : U16) (ts : I32) (payload : List Byte)
  /-- DEC.BADMARK (R111): a frame that fails VALIDATE. -/
  | decBadmark (frame : List Byte)
  /-- DEC.VALIDATE (R110): any frame. -/
  | decValidate (frame : List Byte)
  /-- DEC.SHORT (R116): the bytes between the two markers of a frame shorter than 16 bytes. -/
  | decShort (body : List Byte)
  /-- DEC.HEADER (R114): a frame of at least 16 bytes. -/
  | decHeader (frame : List Byte)
  /-- DEC.DISPATCH (R117): the parsed type code. -/
  | decDispatch (type : I16)
  /-- RESET (R185). -/
  | reset
  /-- rd16s (R105): a frame and an offset into it. -/
  | rd16s (frame : List Byte) (o : Nat)
  /-- rd32s (R106): a frame and an offset into it. -/
  | rd32s (frame : List Byte) (o : Nat)
  /-- ru16 (R107): a frame and an offset into it. -/
  | ru16 (frame : List Byte) (o : Nat)
  deriving DecidableEq, Repr

end Sys2Proof
end

