-- ==== Sys2Proof/WellFormed.lean ====
section
/-! DEFINITION. Which operands an operation of the table may carry. -/

namespace Sys2Proof

/-- The operand conditions the spec states: an OTHER frame has none of the three known types (R119), a BADMARK frame fails
VALIDATE (R111), a SHORT frame is under 16 bytes (R116), HEADER wants 16 bytes (R114), a primitive reads inside its frame
(R105, R106). Every other operand is legal at every value. -/
def Instr.wf : Instr → Bool
  | .syncFooter => true
  | .syncHeader => true
  | .syncOverflow _ => true
  | .syncAccum _ => true
  | .decOdom _ _ _ => true
  | .decLaser _ _ _ => true
  | .decText _ _ _ => true
  | .decOther type _ _ _ => decide (dispatch type = .other)
  | .decBadmark F => headerBad F || footerBad F
  | .decValidate _ => true
  | .decShort body => decide ((betweenMarkers body).length < Config.minHdrFrame)
  | .decHeader F => decide (Config.minHdrFrame ≤ F.length)
  | .decDispatch _ => true
  | .reset => true
  | .rd16s F o => decide (o + 2 ≤ F.length)
  | .rd32s F o => decide (o + 4 ≤ F.length)
  | .ru16 F o => decide (o + 2 ≤ F.length)

end Sys2Proof
end

