-- ==== Sys2Proof/Decode.lean ====
section
/-! DEFINITION. From the two encodings of XSP to its operations and back: the synchronizer's window (30_encoding.md R74) and
the frame on the wire (R60 to R67), read as the rows of spec/opcode_table.json (R75). -/

namespace Sys2Proof

/-- What selects an operation. -/
inductive Code where
  /-- The synchronizer's code: the bytes before the new one, the new byte, and whether the buffer is full with it (R74, R75). -/
  | window (full : Bool) (before : List Byte) (b : Byte)
  /-- The decoder's code: a candidate frame (R60, R75). -/
  | frame (F : List Byte)
  deriving DecidableEq, Repr

/-- Why bytes are no operation (R70: none is). -/
inductive DecodeError where
  /-- The MessageHeader of a frame of 16 bytes or more could not be read. No frame does this. -/
  | unreadableHeader
  deriving DecidableEq, Repr

/-- R74, R75: the window4 rows in the order of their priority. -/
def decodeWindow (full : Bool) (before : List Byte) (b : Byte) : Instr :=
  if endsWithFooter (before ++ [b]) then .syncFooter
  else if endsWithHeader (before ++ [b]) then .syncHeader
  else if full then .syncOverflow b
  else .syncAccum b

/-- The operation FEED performs for the byte `b` (40_synchronizer.md R88). -/
def classify (c : Config) (buf : List Byte) (b : Byte) : Instr :=
  decodeWindow (full c.bufMax (buf.length + 1)) buf b

/-- The payload of a frame: offsets 0x0c to len − 5 (20_memory.md R45). -/
def payloadOf (F : List Byte) : List Byte := (beforeFooter F).drop Config.offPayload

/-- The row of format `frame` that a message with this header and payload selects (30_encoding.md R63). -/
def frameInstr (h : MessageHeader) (payload : List Byte) : Instr :=
  match dispatch h.type with
  | .odom => .decOdom h.seq h.ts payload
  | .laser => .decLaser h.seq h.ts payload
  | .text => .decText h.seq h.ts payload
  | .other => .decOther h.type h.seq h.ts payload

/-- The operation DECODE performs for the frame `F` (R75: the frame rows, with DEC.SHORT before the HEADER is parsed). -/
def decodeFrame (F : List Byte) : Except DecodeError Instr :=
  if headerBad F || footerBad F then .ok (.decBadmark F)
  else if F.length < Config.minHdrFrame then .ok (.decShort ((beforeFooter F).drop Config.markLen))
  else
    match parseHeader (beforeFooter F) with
    | none => .error .unreadableHeader
    | some h => .ok (frameInstr h (payloadOf F))

/-- The decoder, total on every code. -/
def decode : Code → Except DecodeError Instr
  | .window full before b => .ok (decodeWindow full before b)
  | .frame F => decodeFrame F

/-! ### The encoder -/

/-- The code of an operation, from the patterns of spec/opcode_table.json and the layouts of R60 to R67. The common steps
VALIDATE, HEADER and DISPATCH, RESET and the primitives "have no pattern of their own" (R75). -/
def encode : Instr → Option Code
  | .syncFooter => some (.window false Config.ftr.dropLast Config.ftrLast)
  | .syncHeader => some (.window false Config.hdr.dropLast Config.hdrLast)
  | .syncOverflow b => some (.window true [] b)
  | .syncAccum b => some (.window false [] b)
  | .decOdom seq ts payload => some (.frame (frameOf ⟨Config.typeOdom, seq, ts⟩ payload))
  | .decLaser seq ts payload => some (.frame (frameOf ⟨Config.typeLaser, seq, ts⟩ payload))
  | .decText seq ts payload => some (.frame (frameOf ⟨Config.typeText, seq, ts⟩ payload))
  | .decOther type seq ts payload => some (.frame (frameOf ⟨type, seq, ts⟩ payload))
  | .decBadmark F => some (.frame F)
  | .decShort body => some (.frame (betweenMarkers body))
  | .decValidate _ => none
  | .decHeader _ => none
  | .decDispatch _ => none
  | .reset => none
  | .rd16s _ _ => none
  | .rd32s _ _ => none
  | .ru16 _ _ => none

/-! ### The words of the opcode table -/

/-- The first `n` bytes of a table word: byte 0 is bits 7 to 0. -/
def wordBytes : (n : Nat) → (w : Nat) → List Byte
  | 0, _ => []
  | n + 1, w => BitVec.ofNat 8 w :: wordBytes n (w / 256)

/-- The frame that a word of the `frame` rows stands for: the table's bytes, operand bytes of zeros up to the longest
minimum length (384 bytes in all, so that every row's own length check passes), and the row's `tail_match`. Log 5. -/
def tableFrame (nbits w : Nat) : List Byte :=
  wordBytes (nbits / 8) w ++ List.replicate (Config.minLaserFrame - Config.markLen - nbits / 8) 0 ++ Config.ftr

/-- The code a table word stands for: up to 32 bits the four bytes of a window, with room in the buffer; more, a frame. -/
def tableCode (nbits w : Nat) : Option Code :=
  if nbits = 0 then none
  else if nbits ≤ 8 * Config.markLen then
    some (.window false (wordBytes (Config.markLen - 1) w) (BitVec.ofNat 8 (w / 256 ^ (Config.markLen - 1))))
  else some (.frame (tableFrame nbits w))

end Sys2Proof

/-- The operation the decoder reads from a word numbered as spec/opcode_table.json numbers it (bit 0 is the least
significant bit of the first byte). -/
def Sys2Proof.decodeTableWord (nbits w : Nat) : Option Sys2Proof.Instr :=
  match Sys2Proof.tableCode nbits w with
  | none => none
  | some c => (Sys2Proof.decode c).toOption
end

