-- ==== Sys2Proof/Machine/State.lean ====
section
/-! DEFINITION. The state of the machine, the reasons it can stop, and the state after reset. -/

namespace Sys2Proof.Machine

/-- Why an operation stops. No step of the machine reaches either (00_scope.md R12: the step "never faults"); both are
raised only by an operation run directly on operands the spec gives it no effect on. -/
inductive Fault where
  /-- Raised by rd16s, rd32s, ru16 and DEC.HEADER for a read that does not lie inside the frame ("defined only if
  off + n ≤ len(F)", R11), and by the decoder for a read not wholly before the footer or a write outside the table
  (R46, R47), which no decode reaches. Safe: the spec gives such an access no value. -/
  | accessOutsideStore
  /-- Raised by DEC.BADMARK on a frame whose two markers are both good: the operation has no event to produce ("code 0 is
  never the code of an Err event", R160). Safe. -/
  | markersGood
  deriving DecidableEq, Repr

/-- Why an operation has no meaning. -/
inductive Refusal where
  /-- Raised by an arm of `exec` whose operation is not modelled yet. No arm raises it now. Safe. -/
  | notModelled (mnemonic : String)
  deriving DecidableEq, Repr

/-- What the host puts on XSP's inputs (70_reset_and_hazards.md R198). -/
inductive HostInput where
  /-- The byte source presents a byte. -/
  | byte (b : Byte)
  /-- The reset input is asserted, between steps (R185). -/
  | reset
  deriving DecidableEq, Repr

/-- The output of the operation just completed. A step gives `silent` or `event`; the others are the results of the
decoder's common steps and of the primitives when they are run by themselves. Log 3. -/
inductive Output where
  /-- Nothing: no event. -/
  | silent
  /-- The event of the step (R118). -/
  | event (e : Event)
  /-- VALIDATE's pair (R110). -/
  | flags (headerBad footerBad : Bool)
  /-- HEADER's three values (R114). -/
  | header (h : MessageHeader)
  /-- DISPATCH's choice (R117). -/
  | selected (op : PayloadOp)
  /-- The value of rd16s (R105). -/
  | i16 (v : I16)
  /-- The value of rd32s (R106). -/
  | i32 (v : I32)
  /-- The value of ru16 (R107). -/
  | u16 (v : U16)
  deriving DecidableEq, Repr

/-- The machine: XSP's own state (10_state.md R20) is `buf` and `sensors`, "and nothing else"; `cfg`, `input` and `out` are
what R12 passes beside it, held here because `Host.Core.step` has one argument. Logs 1, 2, 3. -/
structure State where
  /-- The build-time parameter BUF_MAX (R9); no operation writes it. -/
  cfg     : Config
  /-- The AccumulationBuffer (R21), oldest byte first; its address space is the list's indices (log 9). -/
  buf     : List Byte
  /-- `left`, `right` and the LaserScanTable (R24, R26). -/
  sensors : Sensors
  /-- What the host has presented and XSP has not yet accepted, oldest first (R7). -/
  input   : List HostInput
  /-- The output of the operation just completed (R12); no operation reads it. -/
  out     : Output
  deriving DecidableEq, Repr

/-- A reading at reset (R32). -/
def resetOdometry : Odometry := ⟨0, 0⟩

/-- A table entry at reset (R32). -/
def resetPoint : LaserPoint := ⟨0, 0, false⟩

/-- The sensor state at reset (R32, the spec's decision D4; log 4). -/
def resetSensors : Sensors :=
  ⟨resetOdometry, resetOdometry, Vector.replicate Config.tableSize resetPoint⟩

/-- The machine right after reset (R32): buffer empty, odometry zero, every table entry (0, 0, false); nothing presented
and no output yet (logs 2, 3), BUF_MAX = ∞ (log 1). -/
def State.reset : State := ⟨Config.initial, [], resetSensors, [], .silent⟩

/-- What an operation answers. -/
abbrev Result := Host.Outcome State Fault Refusal

end Sys2Proof.Machine
end

