-- ==== Sys2Proof/Machine/Ops.lean ====
section
/-! DEFINITION. The shared operations: raising an error, the payload decoders over sensor state and frame, DECODE (R113),
FEED (R88), the composed step (R95), and the fetch of what the host presents. -/

namespace Sys2Proof.Machine

/-- A sensor state and the one event of a decode (41_decoder_common.md R109). -/
abbrev Decoded := Sensors × Event

/-! ### Errors -/

/-- `raise E` (60_exceptions.md R166): the frame's handling ends, the sensor state is what it was, the event is `Err`;
nothing is saved and there is no mode, vector or cause register. There is no return operation (R167): the next byte is
handled by FEED as after any frame. -/
def raise (σ : Sensors) (e : ErrCause) : Decoded := (σ, .err e)

/-! ### The payload decoders -/

/-- ODOM (42_decode_odometry.md R127). -/
def odom (σ : Sensors) (F : List Byte) (h : MessageHeader) : Option Decoded :=
  if F.length < Config.minOdomFrame then some (raise σ .shortFrame)
  else do
    let lc ← rd32s (beforeFooter F) Config.offLcount
    let rc ← rd32s (beforeFooter F) Config.offRcount
    let ls ← rd16s (beforeFooter F) Config.offLspeed
    let rs ← rd16s (beforeFooter F) Config.offRspeed
    return ({ σ with left := ⟨lc, ls⟩, right := ⟨rc, rs⟩ }, .msg h (.odom ⟨lc, ls⟩ ⟨rc, rs⟩))

/-- TEXT (43_decode_text.md R138); the bounds are on mathematical integers (R137). -/
def text (σ : Sensors) (F : List Byte) (h : MessageHeader) : Option Decoded :=
  if F.length < Config.minTextFrame then some (raise σ .shortFrame)
  else do
    let length ← rd32s (beforeFooter F) Config.offTlen
    if length.toInt < 0 ∨ (F.length : Int) - Config.minTextFrame < length.toInt then
      return raise σ .textLength
    else
      let bytes ← memRead (beforeFooter F) Config.offTdata length.toInt.toNat
      return (σ, .msg h (.text (bytes ++ [0x00])))

/-- Point `i` of a laser frame (30_encoding.md R67, 44_decode_laser.md R148, R149). -/
def readPoint (F : List Byte) (i : Nat) : Option LaserPoint := do
  let x ← rd16s F (Config.offLpts + Config.ptStride * i)
  let y ← rd16s F (Config.offLpts + Config.ptStride * i + 2)
  return ⟨x, y, pointValid x y⟩

/-- The first `n` points of a laser frame, in order. -/
def readPoints (F : List Byte) : (n : Nat) → Option (Vector LaserPoint n)
  | 0 => some #v[]
  | n + 1 => do
    let pts ← readPoints F n
    let p ← readPoint F n
    return pts.push p

/-- `laser[k + i] <- pts[i]` for each `i` in turn, every index checked against the table (20_memory.md R47: "the index
never wraps"; 44_decode_laser.md R150). -/
def writeSlice (table : Vector LaserPoint Config.tableSize) :
    (k : Nat) → List LaserPoint → Option (Vector LaserPoint Config.tableSize)
  | _, [] => some table
  | k, p :: ps => if h : k < Config.tableSize then writeSlice (table.set k p h) (k + 1) ps else none

/-- LASER (44_decode_laser.md R151); the bounds are on mathematical integers (R147). -/
def laser (σ : Sensors) (F : List Byte) (h : MessageHeader) : Option Decoded :=
  if F.length < Config.minLaserFrame then some (raise σ .shortFrame)
  else do
    let start ← rd32s (beforeFooter F) Config.offLstart
    if start.toInt < 0 ∨ (Config.lastStart : Int) < start.toInt then
      return raise σ .laserIndex
    else
      let pts ← readPoints (beforeFooter F) Config.nPts
      let table ← writeSlice σ.laser start.toInt.toNat pts.toList
      return ({ σ with laser := table }, .msg h (.laser start.toInt.toNat pts))

/-- OTHER, the unrecognised type (41_decoder_common.md R119). -/
def other (σ : Sensors) (h : MessageHeader) : Decoded := (σ, .msg h .noRecord)

/-! ### DECODE and FEED -/

/-- The whole of DECODE, in the order of 41_decoder_common.md R113. `none` would be an access outside the frame or the
table; no frame gives it. -/
def runDecode (σ : Sensors) (F : List Byte) : Option Decoded :=
  match markerError (headerBad F) (footerBad F) with
  | some e => some (raise σ e)
  | none =>
    if F.length < Config.minHdrFrame then some (raise σ .shortFrame)
    else do
      let h ← parseHeader (beforeFooter F)
      match dispatch h.type with
      | .odom => odom σ F h
      | .text => text σ F h
      | .laser => laser σ F h
      | .other => return other σ h

/-- FEED's output (40_synchronizer.md R85). -/
inductive FeedOut where
  | nothing
  | frame (F : List Byte)
  | overflow
  deriving DecidableEq, Repr

/-- The whole of FEED, in the order of 40_synchronizer.md R88. -/
def feed (m : BufMax) (buf : List Byte) (b : Byte) : List Byte × FeedOut :=
  let buf1 := buf ++ [b]
  if endsWithFooter buf1 then ([], .frame buf1)
  else if endsWithHeader buf1 then (Config.hdr, .nothing)
  else if full m buf1.length then ([], .overflow)
  else (buf1, .nothing)

/-- The architectural step, FEED composed with DECODE (40_synchronizer.md R95), in the shape of 00_scope.md R12: the new
state and at most one event. `step` of Machine/Step.lean runs the operation table instead. -/
def xspStep (s : State) (b : Byte) : Option (State × Option Event) :=
  match feed s.cfg.bufMax s.buf b with
  | (buf, .nothing) => some ({ s with buf := buf }, none)
  | (_, .overflow) => some ({ s with buf := [] }, some (.err .bufferOverflow))
  | (_, .frame F) =>
    match runDecode s.sensors F with
    | none => none
    | some (σ, e) => some ({ s with buf := [], sensors := σ }, some e)

/-- `run` of 00_scope.md R12: the step folded over a stream, the events in order. -/
def run (s : State) : List Byte → Option (State × List Event)
  | [] => some (s, [])
  | b :: bs =>
    match xspStep s b with
    | none => none
    | some (t, e) => (run t bs).map fun r => (r.1, e.toList ++ r.2)

/-! ### Ending an operation -/

/-- A decode's result in the machine's state; `buf` is FEED's alone (10_state.md R21). -/
def State.withDecoded (s : State) (r : Decoded) : State := { s with sensors := r.1, out := .event r.2 }

/-- An operation that ends with an output and changes nothing else. -/
def State.answer (s : State) (o : Output) : State := { s with out := o }

/-- An error ends the operation: sensor state unchanged, the event is `Err` (R166). -/
def State.raiseErr (s : State) (e : ErrCause) : State := s.withDecoded (raise s.sensors e)

/-- The end of a decode. -/
def finishDecode (s : State) : Option Decoded → Result
  | none => .fault .accessOutsideStore
  | some r => .next (s.withDecoded r)

/-- The end of a read: its value is the output, and a read outside the frame has none (R11). -/
def finishRead (s : State) : Option Output → Result
  | none => .fault .accessOutsideStore
  | some o => .next (s.answer o)

/-! ### The host's inputs -/

/-- The next thing the host has presented, as an operation, and the state with it taken off the input. A byte selects a
row of the window table (R74); reset is RESET (R185). `none` when nothing is presented. -/
def fetch (s : State) : Option (Instr × State) :=
  match s.input with
  | [] => none
  | .byte b :: rest => some (classify s.cfg s.buf b, { s with input := rest })
  | .reset :: rest => some (.reset, { s with input := rest })

/-- Nothing is presented: XSP "is idle between bytes and holds all its state" (60_exceptions.md R177), and no event is
produced. -/
def State.idle (s : State) : State := s.answer .silent

/-- The host presents a code as the next thing XSP sees: a window as three bytes in the buffer and one presented, a frame
as all of it but its last byte in the buffer and that byte presented. -/
def State.placeCode (s : State) : Code → State
  | .window _ before b => { s with buf := before, input := .byte b :: s.input }
  | .frame F => { s with buf := F.dropLast, input := .byte (F.getLast?.getD Config.ftrLast) :: s.input }

end Sys2Proof.Machine
end

