-- ==== Sys2Proof/Machine/DecodeCommon.lean ====
section
/-! DEFINITION. The meanings of the decoder's common rows (41_decoder_common.md), run by themselves: DECODE of one frame,
which neither reads nor writes `buf` (R109), or one of its steps. Log 6. -/

namespace Sys2Proof.Machine

/-- DEC.VALIDATE (R110): both tests are made; the result is the pair of flags. -/
def execDecValidate (F : List Byte) (s : State) : Result :=
  .next (s.answer (.flags (headerBad F) (footerBad F)))

/-- DEC.BADMARK (R111): `Err(1)`, `Err(2)` or `Err(3)`, no state mutated. -/
def execDecBadmark (F : List Byte) (s : State) : Result :=
  match markerError (headerBad F) (footerBad F) with
  | none => .fault .markersGood
  | some e => .next (s.raiseErr e)

/-- DEC.SHORT (R116): `Err(4)`, nothing parsed. -/
def execDecShort (_body : List Byte) (s : State) : Result := .next (s.raiseErr .shortFrame)

/-- DEC.HEADER (R114): the three values of the MessageHeader; no state is written. -/
def execDecHeader (F : List Byte) (s : State) : Result :=
  finishRead s ((parseHeader (beforeFooter F)).map .header)

/-- DEC.DISPATCH (R117): the payload operation the type code selects. -/
def execDecDispatch (type : I16) (s : State) : Result := .next (s.answer (.selected (dispatch type)))

/-- DEC.OTHER (R119): accepted, no payload decoded, no error. -/
def execDecOther (type : I16) (seq : U16) (ts : I32) (_payload : List Byte) (s : State) : Result :=
  finishDecode s (some (other s.sensors ⟨type, seq, ts⟩))

end Sys2Proof.Machine
end

