-- ==== Sys2Proof/Machine/Payload.lean ====
section
/-! DEFINITION. The meanings of the three payload rows, each on the frame its operands stand for (30_encoding.md R73):
42_decode_odometry.md, 43_decode_text.md, 44_decode_laser.md. -/

namespace Sys2Proof.Machine

/-- DEC.ODOM (R127). -/
def execDecOdom (seq : U16) (ts : I32) (payload : List Byte) (s : State) : Result :=
  finishDecode s (odom s.sensors (frameOf ⟨Config.typeOdom, seq, ts⟩ payload) ⟨Config.typeOdom, seq, ts⟩)

/-- DEC.TEXT (R138). -/
def execDecText (seq : U16) (ts : I32) (payload : List Byte) (s : State) : Result :=
  finishDecode s (text s.sensors (frameOf ⟨Config.typeText, seq, ts⟩ payload) ⟨Config.typeText, seq, ts⟩)

/-- DEC.LASER (R151). -/
def execDecLaser (seq : U16) (ts : I32) (payload : List Byte) (s : State) : Result :=
  finishDecode s (laser s.sensors (frameOf ⟨Config.typeLaser, seq, ts⟩ payload) ⟨Config.typeLaser, seq, ts⟩)

end Sys2Proof.Machine
end

