-- ==== Sys2Proof/Machine/Primitives.lean ====
section
/-! DEFINITION. The meanings of the three read primitives run by themselves (41_decoder_common.md R105 to R107): the value
is the output, nothing is written. Outside the frame there is no value (R11). -/

namespace Sys2Proof.Machine

/-- rd16s (R105). -/
def execRd16s (F : List Byte) (o : Nat) (s : State) : Result := finishRead s ((rd16s F o).map .i16)

/-- rd32s (R106). -/
def execRd32s (F : List Byte) (o : Nat) (s : State) : Result := finishRead s ((rd32s F o).map .i32)

/-- ru16 (R107). -/
def execRu16 (F : List Byte) (o : Nat) (s : State) : Result := finishRead s ((ru16 F o).map .u16)

end Sys2Proof.Machine
end

