-- ==== Sys2Proof/Machine/Reset.lean ====
section
/-! DEFINITION. The meaning of RESET (70_reset_and_hazards.md R185). -/

namespace Sys2Proof.Machine

/-- RESET (R185): the whole state goes to the reset state, a partly accumulated frame is discarded without an event, and
no event is produced. The build parameter and what the host has yet to present are no state of XSP and stay. -/
def execReset (s : State) : Result :=
  .next { s with buf := [], sensors := resetSensors, out := .silent }

end Sys2Proof.Machine
end

