-- ==== Sys2Proof/Machine/Sync.lean ====
section
/-! DEFINITION. The meanings of the synchronizer's four rows (40_synchronizer.md). Each is the effect of its arm of R88;
the tests that select it are `classify`'s (Decode.lean). Log 7. -/

namespace Sys2Proof.Machine

/-- SYNC.FOOTER (R89, R95): the whole buffer with the footer's last byte is the candidate frame, the buffer is emptied,
and the frame is decoded in the same step. -/
def execSyncFooter (s : State) : Result :=
  finishDecode { s with buf := [] } (runDecode s.sensors (s.buf ++ [Config.ftrLast]))

/-- SYNC.HEADER (R90): everything but the header marker is discarded, silently. -/
def execSyncHeader (s : State) : Result :=
  .next { s with buf := Config.hdr, out := .silent }

/-- SYNC.OVERFLOW (R93): every accumulated byte is discarded, the new one too; `Err(7)` (60_exceptions.md R165). -/
def execSyncOverflow (_b : Byte) (s : State) : Result :=
  .next (State.raiseErr { s with buf := [] } .bufferOverflow)

/-- SYNC.ACCUM (R91): the byte is appended; no event. -/
def execSyncAccum (b : Byte) (s : State) : Result :=
  .next { s with buf := s.buf ++ [b], out := .silent }

end Sys2Proof.Machine
end

