-- ==== Sys2Proof/Machine/Dispatch.lean ====
section
/-! DEFINITION. One arm per operation of the table, each one call of its meaning. -/

namespace Sys2Proof.Machine

def exec (i : Instr) (s : State) : Host.Outcome State Fault Refusal :=
  match i with
  -- the synchronizer
  | .syncFooter => Sys2Proof.Machine.execSyncFooter s
  | .syncHeader => Sys2Proof.Machine.execSyncHeader s
  | .syncOverflow b => Sys2Proof.Machine.execSyncOverflow b s
  | .syncAccum b => Sys2Proof.Machine.execSyncAccum b s
  -- the payload decoders
  | .decOdom seq ts payload => Sys2Proof.Machine.execDecOdom seq ts payload s
  | .decLaser seq ts payload => Sys2Proof.Machine.execDecLaser seq ts payload s
  | .decText seq ts payload => Sys2Proof.Machine.execDecText seq ts payload s
  -- the decoder's common part
  | .decOther type seq ts payload => Sys2Proof.Machine.execDecOther type seq ts payload s
  | .decBadmark frame => Sys2Proof.Machine.execDecBadmark frame s
  | .decValidate frame => Sys2Proof.Machine.execDecValidate frame s
  | .decShort body => Sys2Proof.Machine.execDecShort body s
  | .decHeader frame => Sys2Proof.Machine.execDecHeader frame s
  | .decDispatch type => Sys2Proof.Machine.execDecDispatch type s
  -- reset
  | .reset => Sys2Proof.Machine.execReset s
  -- the read primitives
  | .rd16s frame o => Sys2Proof.Machine.execRd16s frame o s
  | .rd32s frame o => Sys2Proof.Machine.execRd32s frame o s
  | .ru16 frame o => Sys2Proof.Machine.execRu16 frame o s

end Sys2Proof.Machine
end

