-- ==== Sys2Proof/Machine/Step.lean ====
section
/-! DEFINITION. One step of the machine: it accepts the next thing the host has presented, a byte (one architectural step,
00_scope.md R6) or reset, and runs the operation that selects. With nothing presented it is idle (60_exceptions.md R177). -/

namespace Sys2Proof.Machine

/-- The step. -/
def step (s : State) : Host.Outcome State Fault Refusal :=
  match fetch s with
  | none => .next s.idle
  | some (i, s') => exec i s'

/-- The state whose next step accepts the last byte of the table word's code, the bytes before it being in the buffer:
XSP does not fetch at a program counter (10_state.md R27), its next operation is selected by the buffer and the byte
presented. A word of no bits changes nothing. Log 5. -/
def State.withFetchWord (s : State) (nbits w : Nat) : State :=
  match tableCode nbits w with
  | none => s
  | some c => s.placeCode c

end Sys2Proof.Machine
end

