-- ==== Sys2Proof/Machine/Ports.lean ====
section
/-! DEFINITION. What the consumer sees between steps (70_reset_and_hazards.md R192, R197, R198): pure views of the state.
A port that carries nothing has no value here, where the spec gives none. The clock, the handshake and `in_ready` are not
modelled: the rules have no time (R196, log 10). -/

namespace Sys2Proof.Machine

/-- The event of the step that just completed, if it produced one. -/
def State.event (s : State) : Option Event :=
  match s.out with
  | .event e => some e
  | _ => none

/-- `ev_valid`. -/
def State.evValid (s : State) : Bool := s.event.isSome

/-- `ev_is_err`: 1 for `Err`, 0 for `Msg`. -/
def State.evIsErr (s : State) : Option Bool :=
  s.event.map fun
    | .err _ => true
    | .msg _ _ => false

/-- `ev_code`: the error code, 0 when `Msg`. -/
def State.evCode (s : State) : Option (BitVec 3) :=
  s.event.map fun
    | .err e => e.code
    | .msg _ _ => 0

/-- The header of the message event: `ev_type`, `ev_seq`, `ev_ts`. -/
def State.evHeader (s : State) : Option MessageHeader :=
  s.event.bind fun
    | .msg h _ => some h
    | .err _ => none

/-- The record of the message event. -/
def State.evRecord (s : State) : Option Record :=
  s.event.bind fun
    | .msg _ r => some r
    | .err _ => none

/-- `ev_kind`: 0 NoRecord, 1 Odom, 2 Text, 3 Laser. -/
def State.evKind (s : State) : Option (BitVec 2) :=
  s.evRecord.map fun
    | .noRecord => 0
    | .odom _ _ => 1
    | .text _ => 2
    | .laser _ _ => 3

/-- `ev_start`, 9 bits, when `ev_kind` is 3. -/
def State.evStart (s : State) : Option (BitVec 9) :=
  s.evRecord.bind fun
    | .laser start _ => some (BitVec.ofNat 9 start)
    | _ => none

/-- The text stream: each byte of a `Text` record with `txt_last`, which marks the terminating `0x00`. -/
def textStream : List Byte → List (Byte × Bool)
  | [] => []
  | [b] => [(b, true)]
  | b :: bs => (b, false) :: textStream bs

/-- `txt_valid`, `txt_byte`, `txt_last`: the bytes of a `Text` record in order, none when the event carries none. -/
def State.txt (s : State) : List (Byte × Bool) :=
  match s.evRecord with
  | some (.text bytes) => textStream bytes
  | _ => []

/-- The table read port: the addressed entry; addresses 360 to 511 read as `{0, 0, false}`. -/
def State.tblRead (s : State) (addr : BitVec 9) : LaserPoint :=
  if h : addr.toNat < Config.tableSize then s.sensors.laser[addr.toNat] else ⟨0, 0, false⟩

/-- `odo_left_count`. -/
def State.odoLeftCount (s : State) : I32 := s.sensors.left.count

/-- `odo_right_count`. -/
def State.odoRightCount (s : State) : I32 := s.sensors.right.count

/-- `odo_left_speed_raw`. -/
def State.odoLeftSpeedRaw (s : State) : I16 := s.sensors.left.speedRaw

/-- `odo_right_speed_raw`. -/
def State.odoRightSpeedRaw (s : State) : I16 := s.sensors.right.speedRaw

/-- What the consumer receives over the next `k` steps: the state they lead to and the events on the way, in order
(R198: at most one event per step). -/
def State.watch (s : State) : (k : Nat) → Option (State × List Event)
  | 0 => some (s, [])
  | k + 1 =>
    match step s with
    | .next t => (t.watch k).map fun r => (r.1, t.event.toList ++ r.2)
    | .fault _ => none
    | .refused _ => none

end Sys2Proof.Machine
end

