-- ==== Sys2Proof/Safety.lean ====
section
/-! DEFINITION. What the claims mean by a good state and a clean frame. -/

namespace Sys2Proof.Machine

/-- The four bytes of `bytes` that end at index `p` are `m`. -/
abbrev markerEndsAt (m bytes : List Byte) (p : Nat) : Prop :=
  3 ≤ p ∧ p < bytes.length ∧ (bytes.drop (p - 3)).take Config.markLen = m

/-- The bytes stay below BUF_MAX (40_synchronizer.md R96, I1). -/
def BelowCapacity (m : BufMax) (len : Nat) : Prop :=
  match m with
  | .infinite => True
  | .finite n => len < n

/-- No footer anywhere, and a header at the very start at most (40_synchronizer.md R96, I4). -/
structure MarkersAtStartOnly (bytes : List Byte) : Prop where
  no_footer : ∀ p, ¬ markerEndsAt Config.ftr bytes p
  no_later_header : ∀ p, 4 ≤ p → ¬ markerEndsAt Config.hdr bytes p

/-- Every entry marked valid has both coordinates in −511..511 (44_decode_laser.md R149, 95_test_vectors.md section 11). -/
def ValidEntriesInRange (t : Vector LaserPoint Config.tableSize) : Prop :=
  ∀ (k : Nat) (h : k < 360), t[k].valid = true →
    (-512 < t[k].x.toInt ∧ t[k].x.toInt < 512) ∧ (-512 < t[k].y.toInt ∧ t[k].y.toInt < 512)

/-- A good state: a legal BUF_MAX (R9), the buffer invariants between steps (R22, R96), and a table whose valid entries
are in range. -/
structure Inv (s : State) : Prop where
  cfg_ok : s.cfg.ok = true
  below : BelowCapacity s.cfg.bufMax s.buf.length
  markers : MarkersAtStartOnly s.buf
  valid_in_range : ValidEntriesInRange s.sensors.laser

/-- A frame that reaches the decoder whole: HDR in front, FTR at the end, and neither marker anywhere else
(70_reset_and_hazards.md R189, R190 say what happens to the others). -/
structure CleanFrame (F : List Byte) : Prop where
  header : F.take Config.markLen = Config.hdr
  footer : markerEndsAt Config.ftr F (F.length - 1)
  only_footer : ∀ p, markerEndsAt Config.ftr F p → p = F.length - 1
  only_header : ∀ p, markerEndsAt Config.hdr F p → p = 3

end Sys2Proof.Machine
end

