-- ==== Sys2Proof/Certificates/Slice0/Obligations.lean ====
section
/-! DEFINITION. The statements for the provers. Each docstring names the rule or the section of spec/ it formalises; where a
statement rests on a decision or a derivation the spec marks as its own, or on a log entry of this model, it says so. -/

open Sys2Proof Sys2Proof.Machine

/-! ### Selecting an operation -/

/-- One step, in the model's own terms (00_scope.md section 3, the spec's decision D2; the queue and the idle step are this
model's, log 2): with nothing presented only the output is silenced; a byte runs the operation the window selects, with the
byte taken off the input; the reset input runs RESET. -/
def Obligations.StepRunsSelectedOperation : Prop :=
  ∀ s : State,
    (s.input = [] → step s = .next { s with out := .silent }) ∧
    (∀ b rest, s.input = .byte b :: rest →
      step s = exec (classify s.cfg s.buf b) { s with input := rest }) ∧
    (∀ rest, s.input = .reset :: rest → step s = exec .reset { s with input := rest })

/-- A few codes. The six frames are written out from 95_test_vectors.md (V3, V10, V11, V12, O3, T3). The three table words
hold the bytes 40 30 20 10, 01 02 03 04 and 40 30 20 11 of 30_encoding.md section 7, numbered with the first byte in bits 7
to 0 and read with room in the buffer: both are this model's choice, log 5, and the second alone makes the third word the
accumulate row and not the overflow row. -/
def Obligations.SampleCodesDecode : Prop :=
  decodeTableWord 32 0x10203040 = some .syncFooter ∧
  decodeTableWord 32 0x04030201 = some .syncHeader ∧
  decodeTableWord 32 0x11203040 = some (.syncAccum 0x11) ∧
  decode (.frame [0x01, 0x02, 0x03, 0x04]) = .ok (.decBadmark [0x01, 0x02, 0x03, 0x04]) ∧
  decode (.frame [0x01, 0x02, 0x03, 0x04, 0x01, 0, 0, 0, 0, 0, 0, 0x40, 0x30, 0x20, 0x10]) =
    .ok (.decShort [0x01, 0, 0, 0, 0, 0, 0]) ∧
  decode (.frame [0x01, 0x02, 0x03, 0x04, 0x02, 0, 0x07, 0, 0, 0, 0, 0, 0x40, 0x30, 0x20, 0x10]) =
    .ok (.decOther 2 7 0 []) ∧
  decode (.frame [0x01, 0x02, 0x03, 0x04, 0xff, 0xff, 0xff, 0xff, 0xff, 0xff, 0xff, 0xff, 0x40, 0x30, 0x20, 0x10]) =
    .ok (.decOther (-1) 65535 (-1) []) ∧
  decode (.frame [0x01, 0x02, 0x03, 0x04, 0x01, 0, 0x03, 0, 0x04, 0, 0, 0, 0x05, 0, 0, 0, 0xfa, 0xff, 0xff, 0xff,
      0xff, 0xff, 0xff, 0x7f, 0xde, 0xad, 0x40, 0x30, 0x20, 0x10]) =
    .ok (.decOdom 3 4 [0x05, 0, 0, 0, 0xfa, 0xff, 0xff, 0xff, 0xff, 0xff, 0xff, 0x7f, 0xde, 0xad]) ∧
  decode (.frame [0x01, 0x02, 0x03, 0x04, 0x11, 0, 0x01, 0, 0x02, 0, 0, 0, 0x05, 0, 0, 0, 0x68, 0x65, 0x6c, 0x6c, 0x6f,
      0x40, 0x30, 0x20, 0x10]) =
    .ok (.decText 1 2 [0x05, 0, 0, 0, 0x68, 0x65, 0x6c, 0x6c, 0x6f])

/-- 30_encoding.md section 7 with 40_synchronizer.md section 3 (OVERFLOW is the spec's decision D3): which row a byte
selects, in terms of the accumulated bytes; exactly one of the four at every buffer, byte and BUF_MAX. -/
def Obligations.WindowSelectsTheRow : Prop :=
  ∀ (c : Config) (buf : List Byte) (b : Byte),
    (classify c buf b = .syncFooter ↔ ∃ before, buf ++ [b] = before ++ [0x40, 0x30, 0x20, 0x10]) ∧
    (classify c buf b = .syncHeader ↔ ∃ before, buf ++ [b] = before ++ [0x01, 0x02, 0x03, 0x04]) ∧
    (classify c buf b = .syncOverflow b ↔
      (¬ ∃ before, buf ++ [b] = before ++ [0x40, 0x30, 0x20, 0x10]) ∧
      (¬ ∃ before, buf ++ [b] = before ++ [0x01, 0x02, 0x03, 0x04]) ∧
      ∃ n, c.bufMax = .finite n ∧ n ≤ buf.length + 1) ∧
    (classify c buf b = .syncAccum b ↔
      (¬ ∃ before, buf ++ [b] = before ++ [0x40, 0x30, 0x20, 0x10]) ∧
      (¬ ∃ before, buf ++ [b] = before ++ [0x01, 0x02, 0x03, 0x04]) ∧
      ¬ ∃ n, c.bufMax = .finite n ∧ n ≤ buf.length + 1)

/-- Decode and encode agree: an operation that has a code is read back from it, with every operand at every value the
encoding admits (30_encoding.md sections 1 to 3, 7 and 9). -/
def Obligations.DecodeInvertsEncode : Prop :=
  ∀ (i : Instr) (c : Code), i.wf = true → encode i = some c → decode c = .ok i

/-- Every byte sequence is exactly one operation's frame (41_decoder_common.md section 2, decision D18; 30_encoding.md
section 6: no illegal type code): it is never refused, its reading is well formed, and no bit of it is lost. -/
def Obligations.EveryFrameHasOneReading : Prop :=
  ∀ F : List Byte, ∃ i, decodeFrame F = .ok i ∧ i.wf = true ∧ encode i = some (.frame F)

/-- 30_encoding.md section 2 (the width of the comparison is the spec's decision D21): the two type bytes of a frame with
good markers and a whole header select its row, both of them compared. -/
def Obligations.TypeBytesSelectTheRow : Prop :=
  ∀ (t0 t1 : Byte) (seq : U16) (ts : I32) (payload : List Byte),
    let F := [0x01, 0x02, 0x03, 0x04] ++ [t0, t1] ++ le16 seq ++ le32 ts ++ payload ++ [0x40, 0x30, 0x20, 0x10]
    (t0 = 0x01 ∧ t1 = 0x00 → decodeFrame F = .ok (.decOdom seq ts payload)) ∧
    (t0 = 0x05 ∧ t1 = 0x00 → decodeFrame F = .ok (.decLaser seq ts payload)) ∧
    (t0 = 0x11 ∧ t1 = 0x00 → decodeFrame F = .ok (.decText seq ts payload)) ∧
    (¬ (t1 = 0x00 ∧ (t0 = 0x01 ∨ t0 = 0x05 ∨ t0 = 0x11)) →
      decodeFrame F = .ok (.decOther (t1 ++ t0) seq ts payload))

/-! ### The read primitives and the decoder's common rows -/

/-- R105: the value of the 16-bit read, at every frame and every offset inside it; nothing is written, nothing raised. -/
def Obligations.SignedRead16 : Prop :=
  ∀ (F : List Byte) (o : Nat) (s : State) (h : o + 2 ≤ F.length), ∃ v : I16,
    exec (.rd16s F o) s = .next { s with out := .i16 v } ∧
    v.toInt = toS16 ((F[o]'(by omega)).toNat + 256 * (F[o + 1]'(by omega)).toNat)

/-- R106: the value of the 32-bit read, at every frame and every offset inside it; nothing is written, nothing raised. -/
def Obligations.SignedRead32 : Prop :=
  ∀ (F : List Byte) (o : Nat) (s : State) (h : o + 4 ≤ F.length), ∃ v : I32,
    exec (.rd32s F o) s = .next { s with out := .i32 v } ∧
    v.toInt = toS32 ((F[o]'(by omega)).toNat + 2 ^ 8 * (F[o + 1]'(by omega)).toNat +
      2 ^ 16 * (F[o + 2]'(by omega)).toNat + 2 ^ 24 * (F[o + 3]'(by omega)).toNat)

/-- 41_decoder_common.md section 1 (the unsigned view is the spec's decision D13): ru16 is the plain sum of the two bytes,
and the signed read of the same place modulo 65536. -/
def Obligations.UnsignedRead16 : Prop :=
  ∀ (F : List Byte) (o : Nat) (s : State) (h : o + 2 ≤ F.length), ∃ (v : U16) (w : I16),
    exec (.ru16 F o) s = .next { s with out := .u16 v } ∧
    v.toNat = (F[o]'(by omega)).toNat + 256 * (F[o + 1]'(by omega)).toNat ∧
    rd16s F o = some w ∧ (v.toNat : Int) = w.toInt % 65536

/-- 20_memory.md section 2 (derived there): a 4-byte read is the 2-byte read at the same place plus 2^16 times the 2-byte
read two bytes on, both unsigned; wherever the 4-byte read has a value. -/
def Obligations.WideReadIsTwoNarrowReads : Prop :=
  ∀ (F : List Byte) (o : Nat) (v : I32), rd32s F o = some v →
    ∃ lo hi : U16, ru16 F o = some lo ∧ ru16 F (o + 2) = some hi ∧ v.toNat = lo.toNat + 2 ^ 16 * hi.toNat

/-- The primitives outside their frame (00_scope.md section 5, "defined only if"), and HEADER on a frame under 16 bytes, whose
operand is a frame of 16 bytes or more (41_decoder_common.md section 2) and whose fields must lie before the footer
(20_memory.md section 4, decision D7; that HEADER reads from the frame without its last four bytes is this model's
deduction, log 8). The spec gives neither a value; the stop by name is this model's, log 7. -/
def Obligations.ReadsOutsideTheFrameStop : Prop :=
  ∀ (F : List Byte) (o : Nat) (s : State),
    (F.length < o + 2 → exec (.rd16s F o) s = .fault .accessOutsideStore ∧
      exec (.ru16 F o) s = .fault .accessOutsideStore) ∧
    (F.length < o + 4 → exec (.rd32s F o) s = .fault .accessOutsideStore) ∧
    (F.length < 16 → exec (.decHeader F) s = .fault .accessOutsideStore)

/-- 41_decoder_common.md section 2, VALIDATE (decisions D11, D18): both flags are always made, each good exactly when the
frame begins, or ends, with its marker; no state is written. -/
def Obligations.ValidateTestsBothMarkers : Prop :=
  ∀ (F : List Byte) (s : State), ∃ hb fb : Bool,
    exec (.decValidate F) s = .next { s with out := .flags hb fb } ∧
    (hb = false ↔ ∃ rest, F = [0x01, 0x02, 0x03, 0x04] ++ rest) ∧
    (fb = false ↔ ∃ before, F = before ++ [0x40, 0x30, 0x20, 0x10])

/-- 41_decoder_common.md section 2, BADMARK, with the codes of 60_exceptions.md section 1 (decisions D10, D11): a frame with
a bad marker gives `Err` with code 1 for the header plus 2 for the footer, and no state is written. On a frame whose
markers are both good the operation stops by name (this model's, log 7). -/
def Obligations.BadMarkersAreReportedTogether : Prop :=
  ∀ (F : List Byte) (s : State),
    ((headerBad F = true ∨ footerBad F = true) → ∃ e : ErrCause,
      exec (.decBadmark F) s = .next { s with out := .event (.err e) } ∧
      e.code.toNat = (if headerBad F then 1 else 0) + (if footerBad F then 2 else 0)) ∧
    (headerBad F = false ∧ footerBad F = false → exec (.decBadmark F) s = .fault .markersGood)

/-- 41_decoder_common.md section 2, the short-frame check (decision D7): for every body of a frame under 16 bytes, `Err(4)`,
nothing parsed, nothing written; and DECODE gives exactly that for the frame. -/
def Obligations.ShortFrameIsAnError : Prop :=
  ∀ (body : List Byte) (s : State), body.length < 8 →
    exec (.decShort body) s = .next { s with out := .event (.err .shortFrame) } ∧
    ErrCause.shortFrame.code = 4 ∧
    runDecode s.sensors ([0x01, 0x02, 0x03, 0x04] ++ body ++ [0x40, 0x30, 0x20, 0x10]) =
      some (s.sensors, .err .shortFrame)

/-- R114: HEADER parses type, sequence and timestamp from bytes 4 to 11 of every frame of 16 bytes or more; no state is
written; and these are the three values a message event of the frame's decode carries. -/
def Obligations.HeaderIsParsedFromFixedOffsets : Prop :=
  ∀ (F : List Byte) (s : State) (h : 16 ≤ F.length), ∃ m : MessageHeader,
    exec (.decHeader F) s = .next { s with out := .header m } ∧
    m.type.toInt = toS16 ((F[4]'(by omega)).toNat + 256 * (F[5]'(by omega)).toNat) ∧
    m.seq.toNat = (F[6]'(by omega)).toNat + 256 * (F[7]'(by omega)).toNat ∧
    m.ts.toInt = toS32 ((F[8]'(by omega)).toNat + 2 ^ 8 * (F[9]'(by omega)).toNat +
      2 ^ 16 * (F[10]'(by omega)).toNat + 2 ^ 24 * (F[11]'(by omega)).toNat) ∧
    ∀ (σ σ₁ : Sensors) (h : MessageHeader) (rec : Record), runDecode σ F = some (σ₁, .msg h rec) → h = m

/-- R117: DISPATCH selects by the full signed 16-bit type: 1 odometry, 17 text, 5 laser, any other value the no-op. -/
def Obligations.DispatchByFullType : Prop :=
  ∀ (type : I16) (s : State), ∃ op : PayloadOp,
    exec (.decDispatch type) s = .next { s with out := .selected op } ∧
    (op = .odom ↔ type.toInt = 1) ∧ (op = .text ↔ type.toInt = 17) ∧ (op = .laser ↔ type.toInt = 5) ∧
    (op = .other ↔ type.toInt ≠ 1 ∧ type.toInt ≠ 17 ∧ type.toInt ≠ 5)

/-- R119: an unrecognised type is accepted, whatever its payload: the event carries its header and no record, and the
sensor state is unchanged. -/
def Obligations.UnrecognisedTypeIsAccepted : Prop :=
  ∀ (type : I16) (seq : U16) (ts : I32) (payload : List Byte) (s : State),
    type ≠ 0x0001 ∧ type ≠ 0x0005 ∧ type ≠ 0x0011 →
    exec (.decOther type seq ts payload) s =
      .next { s with out := .event (.msg ⟨type, seq, ts⟩ .noRecord) } ∧
    runDecode s.sensors (frameOf ⟨type, seq, ts⟩ payload) =
      some (s.sensors, .msg ⟨type, seq, ts⟩ .noRecord)

/-! ### The payload decoders -/

/-- 42_decode_odometry.md: an odometry frame overwrites all four odometry fields with its four little-endian fields at 0x0c,
0x10, 0x14 and 0x16, whatever they held and whatever bytes follow, and emits them (the event's contents are the spec's
decision D15, log 12); the table, the buffer and the rest stay. (A payload under
12 bytes is `FailedChecksWriteNothing`'s.) -/
def Obligations.OdometryOverwritesBothReadings : Prop :=
  ∀ (seq : U16) (ts : I32) (lc rc : I32) (ls rs : I16) (extra : List Byte) (s : State),
    exec (.decOdom seq ts (le32 lc ++ le32 rc ++ le16 ls ++ le16 rs ++ extra)) s =
      .next { s with
        sensors := { s.sensors with left := ⟨lc, ls⟩, right := ⟨rc, rs⟩ }
        out := .event (.msg ⟨0x0001, seq, ts⟩ (.odom ⟨lc, ls⟩ ⟨rc, rs⟩)) }

/-- R135: a text frame emits exactly as many bytes from 0x10 on as its length field says, then a terminating zero, and writes
no state. The length is one the frame holds; every other is `FailedChecksWriteNothing`'s. -/
def Obligations.TextIsCopiedAndTerminated : Prop :=
  ∀ (seq : U16) (ts length : I32) (rest : List Byte) (s : State),
    0 ≤ length.toInt → length.toInt ≤ rest.length →
    exec (.decText seq ts (le32 length ++ rest)) s =
      .next { s with out := .event (.msg ⟨0x0011, seq, ts⟩ (.text (rest.take length.toInt.toNat ++ [0x00]))) }

/-- 44_decode_laser.md: a laser frame writes its 90 points, each with its validity (`pointValid`, of which
`PointValidityAndItsBitTest` says what it is), to 90 consecutive entries and emits them; every other entry, both readings,
the buffer and the rest stay; the four bytes before the index and the bytes after the points do not matter. That the four
bytes are not read is the spec's decision D22, the range of the index D6, the event's contents D15 (log 12). Any other start
index, and a payload too short, are `FailedChecksWriteNothing`'s. -/
def Obligations.LaserWritesNinetyEntries : Prop :=
  ∀ (seq : U16) (ts : I32) (pad : List Byte) (start : I32) (points : List (I16 × I16)) (extra : List Byte) (s : State),
    pad.length = 4 → ∀ hp : points.length = 90, 0 ≤ start.toInt → start.toInt ≤ 270 →
    ∃ (pts : Vector LaserPoint 90) (table : Vector LaserPoint 360),
      exec (.decLaser seq ts
          (pad ++ le32 start ++ points.flatMap (fun p => le16 p.1 ++ le16 p.2) ++ extra)) s =
        .next { s with
          sensors := { s.sensors with laser := table }
          out := .event (.msg ⟨0x0005, seq, ts⟩ (.laser start.toInt.toNat pts)) } ∧
      (∀ (i : Nat) (hi : i < 90), pts[i] =
        ⟨points[i].1, points[i].2, pointValid points[i].1 points[i].2⟩) ∧
      (∀ (k : Nat) (hk : k < 360), table[k] =
        if h : start.toInt.toNat ≤ k ∧ k < start.toInt.toNat + 90
        then pts[k - start.toInt.toNat]'(by omega) else s.sensors.laser[k])

/-- The bound checks of 42_decode_odometry.md, 43_decode_text.md and 44_decode_laser.md, which are the spec's decisions D6, D7
and D8: a payload too short for its fixed fields is `Err(4)`, a text length the frame does not hold `Err(5)`, a start index
outside 0 to 270 `Err(6)`; the length check comes first; and nothing is written. -/
def Obligations.FailedChecksWriteNothing : Prop :=
  ∀ (seq : U16) (ts : I32) (s : State),
    (∀ payload : List Byte, payload.length < 12 →
      exec (.decOdom seq ts payload) s = .next { s with out := .event (.err .shortFrame) }) ∧
    (∀ payload : List Byte, payload.length < 4 →
      exec (.decText seq ts payload) s = .next { s with out := .event (.err .shortFrame) }) ∧
    (∀ (length : I32) (rest : List Byte), length.toInt < 0 ∨ (rest.length : Int) < length.toInt →
      exec (.decText seq ts (le32 length ++ rest)) s = .next { s with out := .event (.err .textLength) }) ∧
    (∀ payload : List Byte, payload.length < 368 →
      exec (.decLaser seq ts payload) s = .next { s with out := .event (.err .shortFrame) }) ∧
    (∀ (pad : List Byte) (start : I32) (rest : List Byte),
      pad.length = 4 → 360 ≤ rest.length → start.toInt < 0 ∨ 270 < start.toInt →
      exec (.decLaser seq ts (pad ++ le32 start ++ rest)) s = .next { s with out := .event (.err .laserIndex) }) ∧
    ErrCause.shortFrame.code = 4 ∧ ErrCause.textLength.code = 5 ∧ ErrCause.laserIndex.code = 6

/-- 44_decode_laser.md section "Validity" (the reading of |x| at −32768 is decision D12, the bit test is derived there): a
point is valid exactly when both coordinates lie strictly between −512 and 512, and the bit test that avoids the absolute
value agrees. -/
def Obligations.PointValidityAndItsBitTest : Prop :=
  ∀ x y : I16,
    (pointValid x y = true ↔
      (-512 < x.toInt ∧ x.toInt < 512) ∧ (-512 < y.toInt ∧ y.toInt < 512)) ∧
    ((-512 < x.toInt ∧ x.toInt < 512) ↔
      (x.extractLsb' 9 7 = 0 ∨ (x.extractLsb' 9 7 = 0x7f ∧ x.extractLsb' 0 9 ≠ 0)))

/-- 10_state.md section 3 (decision D5): the speed is exactly raw / 1000, from −32.768 to 32.767. -/
def Obligations.SpeedIsRawOverThousand : Prop :=
  ∀ r : Odometry, speed r * 1000 = (r.speedRaw.toInt : Rat) ∧
    (-32768 : Rat) / 1000 ≤ speed r ∧ speed r ≤ (32767 : Rat) / 1000

/-! ### The synchronizer -/

/-- 40_synchronizer.md section 3: the effect of each of the four rows, at every state (which row runs is
`WindowSelectsTheRow`; running a row that is not selected is this model's, log 7; `Err(7)` is decision D3). -/
def Obligations.SynchronizerRowsComplete : Prop :=
  ∀ (s : State) (b : Byte),
    (∃ r : Decoded, runDecode s.sensors (s.buf ++ [0x10]) = some r ∧
      exec .syncFooter s = .next { s with buf := [], sensors := r.1, out := .event r.2 }) ∧
    exec .syncHeader s = .next { s with buf := [0x01, 0x02, 0x03, 0x04], out := .silent } ∧
    exec (.syncOverflow b) s = .next { s with buf := [], out := .event (.err .bufferOverflow) } ∧
    exec (.syncAccum b) s = .next { s with buf := s.buf ++ [b], out := .silent }

/-- R89: a byte that completes the footer closes the frame: the entire buffer with the byte is decoded in the same step and
the buffer is emptied. It holds at every buffer and every BUF_MAX. -/
def Obligations.FooterClosesTheFrame : Prop :=
  ∀ (s : State) (b : Byte) (rest : List HostInput) (before : List Byte),
    s.input = .byte b :: rest → s.buf ++ [b] = before ++ [0x40, 0x30, 0x20, 0x10] →
    ∃ r : Decoded, runDecode s.sensors (s.buf ++ [b]) = some r ∧
      step s = .next { s with buf := [], sensors := r.1, input := rest, out := .event r.2 }

/-- R90: a byte that completes the header marker resets the buffer to exactly the marker; everything before it is lost
silently. It holds at every buffer and every BUF_MAX. -/
def Obligations.HeaderResynchronises : Prop :=
  ∀ (s : State) (b : Byte) (rest : List HostInput) (before : List Byte),
    s.input = .byte b :: rest → s.buf ++ [b] = before ++ [0x01, 0x02, 0x03, 0x04] →
    step s = .next { s with buf := [0x01, 0x02, 0x03, 0x04], input := rest, out := .silent }

/-- R91: a byte that completes no marker, with room in the buffer, is appended and nothing else happens. -/
def Obligations.OtherBytesAccumulate : Prop :=
  ∀ (s : State) (b : Byte) (rest : List HostInput),
    s.input = .byte b :: rest →
    (¬ ∃ before, s.buf ++ [b] = before ++ [0x40, 0x30, 0x20, 0x10]) →
    (¬ ∃ before, s.buf ++ [b] = before ++ [0x01, 0x02, 0x03, 0x04]) →
    (∀ n, s.cfg.bufMax = .finite n → s.buf.length + 1 < n) →
    step s = .next { s with buf := s.buf ++ [b], input := rest, out := .silent }

/-- 40_synchronizer.md section 3, OVERFLOW (decision D3): a byte that completes no marker and brings the buffer to BUF_MAX
empties it, with `Err(7)`; the sensor state is unchanged. -/
def Obligations.OverflowEmptiesTheBuffer : Prop :=
  ∀ (s : State) (b : Byte) (rest : List HostInput) (n : Nat),
    s.input = .byte b :: rest →
    (¬ ∃ before, s.buf ++ [b] = before ++ [0x40, 0x30, 0x20, 0x10]) →
    (¬ ∃ before, s.buf ++ [b] = before ++ [0x01, 0x02, 0x03, 0x04]) →
    s.cfg.bufMax = .finite n → n ≤ s.buf.length + 1 →
    step s = .next { s with buf := [], input := rest, out := .event (.err .bufferOverflow) } ∧
      ErrCause.bufferOverflow.code = 7

/-! ### Reset -/

/-- 70_reset_and_hazards.md section 1 (decision D4): RESET, by itself or from the reset input, empties the buffer, zeroes both
readings and every table entry, gives no event, and touches nothing else (that the parameter and the queue stay is this
model's, log 2). -/
def Obligations.ResetClearsEverything : Prop :=
  ∀ s : State, ∃ σ : Sensors,
    exec .reset s = .next { s with buf := [], sensors := σ, out := .silent } ∧
    σ.left = ⟨0, 0⟩ ∧ σ.right = ⟨0, 0⟩ ∧ (∀ (k : Nat) (hk : k < 360), σ.laser[k] = ⟨0, 0, false⟩) ∧
    (∀ rest, s.input = .reset :: rest →
      step s = .next { s with buf := [], sensors := σ, input := rest, out := .silent })

/-- 10_state.md section 7 (decision D4; the fields `cfg`, `input` and `out` are this model's, logs 1, 2, 3): the reset state,
and that RESET leads to it from every state. -/
def Obligations.ResetStateIsTheTableOfResetValues : Prop :=
  State.reset.buf = [] ∧ State.reset.sensors.left = ⟨0, 0⟩ ∧ State.reset.sensors.right = ⟨0, 0⟩ ∧
  (∀ (k : Nat) (hk : k < 360), State.reset.sensors.laser[k] = ⟨0, 0, false⟩) ∧
  State.reset.input = [] ∧ State.reset.out = .silent ∧
  ∀ s : State, exec .reset s = .next { State.reset with cfg := s.cfg, input := s.input }

/-! ### The whole machine -/

/-- 00_scope.md section 5: "The step is total: it is defined for every state and every byte, and it never faults, hangs or
refuses". -/
def Obligations.StepNeverStops : Prop := ∀ s : State, ∃ t, step s = .next t

/-- 40_synchronizer.md section 4 (decision D2): running the operation table is FEED of R88 followed by DECODE of R113, at
every state, byte and BUF_MAX, with FEED's and DECODE's event as the output. -/
def Obligations.StepIsFeedThenDecode : Prop :=
  ∀ (s : State) (b : Byte) (rest : List HostInput), s.input = .byte b :: rest →
    ∃ (t : State) (e : Option Event), xspStep s b = some (t, e) ∧
      step s = .next { t with
        input := rest
        out := match e with
          | none => .silent
          | some e => .event e }

/-- 41_decoder_common.md section 2 against 30_encoding.md section 9: DECODE of R113 does exactly what the row of the table
that the frame selects does, at every frame and every state. -/
def Obligations.DecodeIsTheSelectedRow : Prop :=
  ∀ (s : State) (F : List Byte), ∃ (i : Instr) (r : Decoded),
    decodeFrame F = .ok i ∧ runDecode s.sensors F = some r ∧
    exec i s = .next { s with sensors := r.1, out := .event r.2 }

/-- 60_exceptions.md section 2, priority (decision D9): whatever else is wrong with a frame, a bad marker is reported first
and a frame under 16 bytes next, at every sensor state; a byte that completes a footer never overflows. -/
def Obligations.ErrorPriority : Prop :=
  (∀ (σ : Sensors) (F : List Byte),
    (headerBad F = true → footerBad F = false → runDecode σ F = some (σ, .err .headerMismatch)) ∧
    (headerBad F = false → footerBad F = true → runDecode σ F = some (σ, .err .footerMismatch)) ∧
    (headerBad F = true → footerBad F = true → runDecode σ F = some (σ, .err .bothMismatch)) ∧
    (headerBad F = false → footerBad F = false → F.length < 16 →
      runDecode σ F = some (σ, .err .shortFrame))) ∧
  (∀ (s : State) (b : Byte) (rest : List HostInput) (t : State) (before : List Byte),
    s.input = .byte b :: rest → s.buf ++ [b] = before ++ [0x40, 0x30, 0x20, 0x10] → step s = .next t →
    t.out ≠ .event (.err .bufferOverflow))

/-- 60_exceptions.md section 2 with 41_decoder_common.md section 3 (decision D9): no operation that ends in an error changes
the sensor state, and a step that ends in one leaves the buffer empty. -/
def Obligations.ErrorsLeaveTheSensorState : Prop :=
  (∀ (i : Instr) (s t : State) (e : ErrCause),
    exec i s = .next t → t.out = .event (.err e) → t.sensors = s.sensors) ∧
  (∀ (s t : State) (e : ErrCause),
    step s = .next t → t.out = .event (.err e) → t.sensors = s.sensors ∧ t.buf = [])

/-- 10_state.md section 8 and 20_memory.md section 6: who writes what. Only ODOM, a closed frame and RESET change the
readings; only LASER, a closed frame and RESET change the table; only the synchronizer's rows and RESET change the buffer;
no operation changes the parameter or the input (both are this model's fields, logs 1, 2: that RESET keeps what the host has
presented is its choice, log 2). -/
def Obligations.WhoWritesWhat : Prop :=
  ∀ (i : Instr) (s t : State), exec i s = .next t →
    t.cfg = s.cfg ∧ t.input = s.input ∧
    (t.sensors.left = s.sensors.left ∧ t.sensors.right = s.sensors.right ∨
      i = .syncFooter ∨ i = .reset ∨ ∃ seq ts payload, i = .decOdom seq ts payload) ∧
    (t.sensors.laser = s.sensors.laser ∨
      i = .syncFooter ∨ i = .reset ∨ ∃ seq ts payload, i = .decLaser seq ts payload) ∧
    (t.buf = s.buf ∨ i = .syncFooter ∨ i = .syncHeader ∨ (∃ b, i = .syncOverflow b) ∨ (∃ b, i = .syncAccum b) ∨
      i = .reset)

/-- 10_state.md section 5 with 40_synchronizer.md section 4 (the overflow arm is decision D3): a byte changes the buffer in
one of three ways, and there is an event exactly when it is emptied. -/
def Obligations.BufferChangesInThreeWays : Prop :=
  ∀ (s t : State) (b : Byte) (rest : List HostInput), s.input = .byte b :: rest → step s = .next t →
    t.input = rest ∧ t.cfg = s.cfg ∧
    ((t.buf = s.buf ++ [b] ∧ t.out = .silent ∧ t.sensors = s.sensors) ∨
      (t.buf = [0x01, 0x02, 0x03, 0x04] ∧ t.out = .silent ∧ t.sensors = s.sensors) ∨
      (t.buf = [] ∧ ∃ e, t.out = .event e))

/-- 41_decoder_common.md section 2 (derived there): no step produces `Err(2)` or `Err(3)`, from any state. -/
def Obligations.StepNeverReportsTheFooter : Prop :=
  ∀ (s t : State), step s = .next t →
    t.out ≠ .event (.err .footerMismatch) ∧ t.out ≠ .event (.err .bothMismatch)

/-- 41_decoder_common.md section 3: decoding a frame a second time gives the same sensor state and the same event. -/
def Obligations.DecodingTwiceChangesNothing : Prop :=
  ∀ (σ σ₁ : Sensors) (F : List Byte) (e : Event),
    runDecode σ F = some (σ₁, e) → runDecode σ₁ F = some (σ₁, e)

/-- 10_state.md section 8: decoding never depends on earlier frames. Two machines that differ only in their sensor state (and
their last output) take the same step: same buffer, same output, same input left. -/
def Obligations.SensorStateDoesNotInfluenceSteps : Prop :=
  ∀ (s₁ s₂ t₁ t₂ : State), s₁.cfg = s₂.cfg → s₁.buf = s₂.buf → s₁.input = s₂.input →
    step s₁ = .next t₁ → step s₂ = .next t₂ →
    t₁.buf = t₂.buf ∧ t₁.out = t₂.out ∧ t₁.input = t₂.input ∧ t₁.cfg = t₂.cfg

/-- 43_decode_text.md, the form of the output (decision D14): a text record is some bytes of the frame and one zero byte, so
it is never empty and at most 19 bytes shorter than the frame. -/
def Obligations.TextRecordLength : Prop :=
  ∀ (σ σ₁ : Sensors) (F : List Byte) (h : MessageHeader) (bytes : List Byte),
    runDecode σ F = some (σ₁, .msg h (.text bytes)) →
    σ₁ = σ ∧ bytes.getLast? = some 0x00 ∧ bytes.length + 19 ≤ F.length

/-- 70_reset_and_hazards.md section 5, the table read port (decision D1): addresses 0 to 359 read the entry, 360 to 511 read
as (0, 0, false); right after a slice was written at `start` the port shows its points. -/
def Obligations.TablePortReadsTheTable : Prop :=
  ∀ (s : State) (addr : BitVec 9),
    (∀ h : addr.toNat < 360, s.tblRead addr = s.sensors.laser[addr.toNat]) ∧
    (360 ≤ addr.toNat → s.tblRead addr = ⟨0, 0, false⟩) ∧
    (∀ (seq : U16) (ts : I32) (payload : List Byte) (t : State) (h : MessageHeader) (start : Nat)
        (pts : Vector LaserPoint 90),
      exec (.decLaser seq ts payload) s = .next t → t.out = .event (.msg h (.laser start pts)) →
      ∀ hr : start ≤ addr.toNat ∧ addr.toNat < start + 90, t.tblRead addr = pts[addr.toNat - start]'(by omega))

/-! ### Invariants -/

/-- The invariant holds right after reset (10_state.md sections 1 and 7; BUF_MAX = ∞ there is this model's, log 1). -/
def Obligations.ResetMeetsTheInvariant : Prop := Inv State.reset

/-- 40_synchronizer.md section 5, I1 and I4 (derived there), with the range of valid table entries: every step from every
state that meets the invariant, reset and idle steps included, leads to one that meets it. -/
def Obligations.StepKeepsTheInvariant : Prop := ∀ s t : State, Inv s → step s = .next t → Inv t

/-- 10_state.md section 2 (the second half is derived there): between steps the tail of the buffer is no complete footer, and
is a header only when the buffer is exactly the header. -/
def Obligations.BufferTailIsNoMarker : Prop :=
  ∀ s : State, Inv s →
    (¬ ∃ before, s.buf = before ++ [0x40, 0x30, 0x20, 0x10]) ∧
    (∀ before, s.buf = before ++ [0x01, 0x02, 0x03, 0x04] → s.buf.length = 4) ∧
    (∀ n, s.cfg.bufMax = .finite n → s.buf.length < n)

/-- 40_synchronizer.md section 5, F1 to F3 (derived there): a candidate frame is no longer than BUF_MAX, ends with the footer
and holds it nowhere else, and holds the header marker at its very start or nowhere. -/
def Obligations.CandidateFramesHaveOneFooter : Prop :=
  ∀ (s : State) (b : Byte) (rest : List HostInput), Inv s → s.input = .byte b :: rest →
    classify s.cfg s.buf b = .syncFooter →
    4 ≤ (s.buf ++ [b]).length ∧ (∀ n, s.cfg.bufMax = .finite n → (s.buf ++ [b]).length ≤ n) ∧
    footerBad (s.buf ++ [b]) = false ∧
    (∀ p, markerEndsAt Config.ftr (s.buf ++ [b]) p → p = (s.buf ++ [b]).length - 1) ∧
    (∀ p, markerEndsAt Config.hdr (s.buf ++ [b]) p → p = 3)

/-! ### Streams -/

/-- 40_synchronizer.md section 5, determinism: feeding a stream in two parts gives the state and the events of feeding it at
once. -/
def Obligations.RunOfAConcatenation : Prop :=
  ∀ (s : State) (S₁ S₂ : List Byte), ∃ (t₁ t₂ : State) (e₁ e₂ : List Event),
    run s S₁ = some (t₁, e₁) ∧ run t₁ S₂ = some (t₂, e₂) ∧ run s (S₁ ++ S₂) = some (t₂, e₁ ++ e₂)

/-- The machine's steps are the spec's run of 00_scope.md section 5, in state and in events: with a stream presented, as many
steps as it has bytes lead to the run's state, the input holding what came after the stream; the events of those steps, in
order, are the run's; and the last output is the last byte's (the output as it was when there is no byte). The input queue
and the output field are this model's, logs 2, 3. -/
def Obligations.HostRunIsTheSpecRun : Prop :=
  ∀ (s : State) (S : List Byte) (rest : List HostInput), ∃ (t : State) (es : List Event) (o : Output),
    run s S = some (t, es) ∧
    Host.Core.run Sys2Proof.core S.length
        (show State from { s with input := S.map HostInput.byte ++ rest }) =
      .next (show State from { t with input := rest, out := o }) ∧
    State.watch { s with input := S.map HostInput.byte ++ rest } S.length =
      some ({ t with input := rest, out := o }, es) ∧
    (S = [] → o = s.out) ∧
    (S ≠ [] → o = .silent ∨ ∃ e, o = .event e ∧ es.getLast? = some e)

/-- 40_synchronizer.md section 3, FOOTER, over a stream: from every buffer with room, the four footer bytes close exactly one
frame, at the last of them: whatever was accumulated, with the footer. -/
def Obligations.FooterBytesAlwaysClose : Prop :=
  ∀ s : State, BelowCapacity s.cfg.bufMax (s.buf.length + 3) →
    ∃ r : Decoded, runDecode s.sensors (s.buf ++ [0x40, 0x30, 0x20, 0x10]) = some r ∧
      run s [0x40, 0x30, 0x20, 0x10] = some ({ s with buf := [], sensors := r.1 }, [r.2])

/-- 40_synchronizer.md sections 3 and 5, resync correctness, over a stream: from every buffer with room, the four header
bytes discard everything accumulated, with no event. -/
def Obligations.HeaderBytesAlwaysResync : Prop :=
  ∀ s : State, BelowCapacity s.cfg.bufMax (s.buf.length + 3) →
    run s [0x01, 0x02, 0x03, 0x04] = some ({ s with buf := [0x01, 0x02, 0x03, 0x04] }, [])

/-- The block does its work (00_scope.md sections 1 and 3; 70_reset_and_hazards.md section 2): a message whose bytes hold no
other marker, and which fits BUF_MAX, is received whole from every state with room for its header marker, whatever was
accumulated before it: exactly one event, at its last byte, DECODE's of exactly its bytes; the buffer is empty after it. -/
def Obligations.CleanMessagesAreReceivedWhole : Prop :=
  ∀ (s : State) (F : List Byte), CleanFrame F →
    BelowCapacity s.cfg.bufMax (s.buf.length + 3) → (∀ n, s.cfg.bufMax = .finite n → F.length ≤ n) →
    ∃ r : Decoded, runDecode s.sensors F = some r ∧
      run s F = some ({ s with buf := [], sensors := r.1 }, [r.2])

/-- 40_synchronizer.md section 3, FramingStall: as long as no marker completes and the buffer has room, a stream only
accumulates: no event, no other change; for ever when BUF_MAX is ∞. -/
def Obligations.StallOnlyAccumulates : Prop :=
  ∀ (s : State) (S : List Byte), BelowCapacity s.cfg.bufMax (s.buf.length + S.length) →
    (∀ p, s.buf.length ≤ p → ¬ markerEndsAt Config.ftr (s.buf ++ S) p ∧ ¬ markerEndsAt Config.hdr (s.buf ++ S) p) →
    run s S = some ({ s with buf := s.buf ++ S }, [])

/-- 40_synchronizer.md section 3, FramingStall and OVERFLOW (decision D3): with a finite BUF_MAX a stall ends in `Err(7)`, with
the buffer emptied and nothing else changed, no later than the byte that brings the buffer to BUF_MAX. -/
def Obligations.StallEndsInOverflow : Prop :=
  ∀ (s : State) (n : Nat) (S : List Byte), s.cfg.bufMax = .finite n → S ≠ [] → n ≤ s.buf.length + S.length →
    (∀ p, s.buf.length ≤ p → ¬ markerEndsAt Config.ftr (s.buf ++ S) p ∧ ¬ markerEndsAt Config.hdr (s.buf ++ S) p) →
    ∃ k, 1 ≤ k ∧ k ≤ S.length ∧ (1 < k → s.buf.length + k ≤ n) ∧
      run s (S.take k) = some ({ s with buf := [] }, [.err .bufferOverflow])

/-! ### The ports -/

/-- 70_reset_and_hazards.md section 5, the event ports (decision D1; the codes are D10, the event's contents D15; that a port
has no value when there is no event is this model's, log 10): whatever operation has completed, an error shows as `ev_is_err`
with its code, from 1 to 7; a message as no error, code 0, with its header, its kind, and no text bytes unless it is a text
record; anything else as no event. -/
def Obligations.EventPortsShowTheEvent : Prop :=
  ∀ (i : Instr) (s t : State), exec i s = .next t →
    (∀ c, t.out = .event (.err c) →
      t.evValid = true ∧ t.evIsErr = some true ∧ t.evCode = some c.code ∧ 1 ≤ c.code.toNat ∧ c.code.toNat ≤ 7 ∧
      t.evHeader = none ∧ t.evKind = none ∧ t.evStart = none ∧ t.txt = []) ∧
    (∀ h r, t.out = .event (.msg h r) →
      t.evValid = true ∧ t.evIsErr = some false ∧ t.evCode = some 0 ∧ t.evHeader = some h ∧
      (t.evKind = some 0 ↔ r = .noRecord) ∧ (t.evKind = some 1 ↔ ∃ a b, r = .odom a b) ∧
      (t.evKind = some 2 ↔ ∃ bytes, r = .text bytes) ∧ (t.evKind = some 3 ↔ ∃ start pts, r = .laser start pts) ∧
      (t.evStart ≠ none ↔ t.evKind = some 3) ∧ (t.txt ≠ [] ↔ t.evKind = some 2)) ∧
    ((∀ e, t.out ≠ .event e) →
      t.evValid = false ∧ t.evIsErr = none ∧ t.evCode = none ∧ t.evHeader = none ∧ t.evKind = none ∧
      t.evStart = none ∧ t.txt = [])

/-- 70_reset_and_hazards.md section 5 (decision D1): right after an operation that emits a record, the ports carry it. The
text stream is the record's bytes in order, `txt_last` on the last alone, which is the terminating zero; an odometry record
is what the `odo` ports read; a laser record's start fits `ev_start`, and its points are the table's at `ev_start` and on. -/
def Obligations.RecordsAreReadFromThePorts : Prop :=
  ∀ (i : Instr) (s t : State) (h : MessageHeader), exec i s = .next t →
    (∀ bytes, t.out = .event (.msg h (.text bytes)) →
      t.txt.map Prod.fst = bytes ∧ t.txt.getLast? = some (0x00, true) ∧
      ∀ (k : Nat) (hk : k < t.txt.length), (t.txt[k]).2 = true ↔ k + 1 = bytes.length) ∧
    (∀ l r, t.out = .event (.msg h (.odom l r)) →
      t.odoLeftCount = l.count ∧ t.odoRightCount = r.count ∧
      t.odoLeftSpeedRaw = l.speedRaw ∧ t.odoRightSpeedRaw = r.speedRaw) ∧
    (∀ start pts, t.out = .event (.msg h (.laser start pts)) → ∃ v : BitVec 9,
      t.evStart = some v ∧ v.toNat = start ∧ start ≤ 270 ∧
      ∀ (k : Nat) (hk : k < 90), t.tblRead (v + BitVec.ofNat 9 k) = pts[k])

/-! ### Outside the encodings -/

/-- This model's choice, log 7: on operands that no frame gives these rows, a type of a payload decoder for OTHER and a body
of 8 bytes or more for SHORT, they run with the same effect as on the others. No rule of the spec says so. -/
def Obligations.IllFormedOtherAndShortRun : Prop :=
  ∀ s : State,
    (∀ (type : I16) (seq : U16) (ts : I32) (payload : List Byte), dispatch type ≠ .other →
      exec (.decOther type seq ts payload) s = .next { s with out := .event (.msg ⟨type, seq, ts⟩ .noRecord) }) ∧
    (∀ body : List Byte, 8 ≤ body.length →
      exec (.decShort body) s = .next { s with out := .event (.err .shortFrame) })
end

