-- ==== Sys2Proof/Laws/Reads.lean ====
section
/-! SUPPORT. Reading a frame: a read inside its bytes has the value the spec states, a read outside has none, and a field
written by `le16` or `le32` is read back. -/

namespace Sys2Proof

/-- A 16-bit read inside the bytes (R41). -/
theorem unsigned16_inside {F : List Byte} {o : Nat} (h : o + 2 ≤ F.length) :
    unsigned16 F o = some ((F[o]'(by omega)).toNat + 256 * (F[o + 1]'(by omega)).toNat) := by
  simp [unsigned16, List.getElem?_eq_getElem (show o < F.length by omega),
    List.getElem?_eq_getElem (show o + 1 < F.length by omega)]

/-- A 32-bit read inside the bytes (R41). -/
theorem unsigned32_inside {F : List Byte} {o : Nat} (h : o + 4 ≤ F.length) :
    unsigned32 F o = some ((F[o]'(by omega)).toNat + 2 ^ 8 * (F[o + 1]'(by omega)).toNat +
      2 ^ 16 * (F[o + 2]'(by omega)).toNat + 2 ^ 24 * (F[o + 3]'(by omega)).toNat) := by
  simp [unsigned32, List.getElem?_eq_getElem (show o < F.length by omega),
    List.getElem?_eq_getElem (show o + 1 < F.length by omega),
    List.getElem?_eq_getElem (show o + 2 < F.length by omega),
    List.getElem?_eq_getElem (show o + 3 < F.length by omega)]

/-- A 16-bit read that runs past the bytes has no value (R11). -/
theorem unsigned16_outside {F : List Byte} {o : Nat} (h : F.length < o + 2) : unsigned16 F o = none := by
  have h1 : F[o + 1]? = none := List.getElem?_eq_none (by omega)
  cases h0 : F[o]? <;> simp [unsigned16, h0, h1]

/-- A 32-bit read that runs past the bytes has no value (R11). -/
theorem unsigned32_outside {F : List Byte} {o : Nat} (h : F.length < o + 4) : unsigned32 F o = none := by
  have h3 : F[o + 3]? = none := List.getElem?_eq_none (by omega)
  cases h0 : F[o]? <;> cases h1 : F[o + 1]? <;> cases h2 : F[o + 2]? <;>
    simp [unsigned32, h0, h1, h2, h3]

theorem rd16s_inside {F : List Byte} {o : Nat} (h : o + 2 ≤ F.length) : ∃ v, rd16s F o = some v :=
  ⟨_, by simp only [rd16s, unsigned16_inside h, Option.map_some]; rfl⟩

theorem ru16_inside {F : List Byte} {o : Nat} (h : o + 2 ≤ F.length) : ∃ v, ru16 F o = some v :=
  ⟨_, by simp only [ru16, unsigned16_inside h, Option.map_some]; rfl⟩

theorem rd32s_inside {F : List Byte} {o : Nat} (h : o + 4 ≤ F.length) : ∃ v, rd32s F o = some v :=
  ⟨_, by simp only [rd32s, unsigned32_inside h, Option.map_some]; rfl⟩

/-- HEADER reads bytes 4 to 11 (R114). -/
theorem parseHeader_inside {F : List Byte} (h : 12 ≤ F.length) : ∃ m, parseHeader F = some m := by
  obtain ⟨a, ha⟩ := rd16s_inside (F := F) (o := Config.offType) (show 4 + 2 ≤ _ by omega)
  obtain ⟨b, hb⟩ := ru16_inside (F := F) (o := Config.offSeq) (show 6 + 2 ≤ _ by omega)
  obtain ⟨c, hc⟩ := rd32s_inside (F := F) (o := Config.offTs) (show 8 + 4 ≤ _ by omega)
  exact ⟨⟨a, b, c⟩, by simp [parseHeader, ha, hb, hc]⟩

/-- The two bytes of `le16 v` make `v` again. -/
theorem le16_value (v : BitVec 16) :
    BitVec.ofNat 16 ((v.extractLsb' 0 8).toNat + 256 * (v.extractLsb' 8 8).toNat) = v := by
  apply BitVec.eq_of_toNat_eq
  simp only [BitVec.toNat_ofNat, BitVec.extractLsb'_toNat, Nat.shiftRight_eq_div_pow]
  have := v.isLt
  omega

/-- The four bytes of `le32 v` make `v` again. -/
theorem le32_value (v : BitVec 32) :
    BitVec.ofNat 32 ((v.extractLsb' 0 8).toNat + 2 ^ 8 * (v.extractLsb' 8 8).toNat +
      2 ^ 16 * (v.extractLsb' 16 8).toNat + 2 ^ 24 * (v.extractLsb' 24 8).toNat) = v := by
  apply BitVec.eq_of_toNat_eq
  simp only [BitVec.toNat_ofNat, BitVec.extractLsb'_toNat, Nat.shiftRight_eq_div_pow]
  have := v.isLt
  omega

@[simp] theorem le16_length (v : BitVec 16) : (le16 v).length = 2 := rfl
@[simp] theorem le32_length (v : BitVec 32) : (le32 v).length = 4 := rfl
@[simp] theorem hdr_length : Config.hdr.length = 4 := rfl
@[simp] theorem ftr_length : Config.ftr.length = 4 := rfl

/-- A 16-bit field is read back where it was written. -/
theorem rd16s_le16 (before after : List Byte) (v : I16) {o : Nat} (h : o = before.length) :
    rd16s (before ++ (le16 v ++ after)) o = some v := by
  subst h
  have := le16_value v
  simp [rd16s, unsigned16, le16] at *
  exact this

/-- The unsigned view reads it back too. -/
theorem ru16_le16 (before after : List Byte) (v : U16) {o : Nat} (h : o = before.length) :
    ru16 (before ++ (le16 v ++ after)) o = some v := rd16s_le16 before after v h

/-- A 32-bit field is read back where it was written. -/
theorem rd32s_le32 (before after : List Byte) (v : I32) {o : Nat} (h : o = before.length) :
    rd32s (before ++ (le32 v ++ after)) o = some v := by
  subst h
  have := le32_value v
  simp [rd32s, unsigned32, le32] at *
  exact this

/-- A read of `n` bytes inside the frame (R11). -/
theorem memRead_inside {F : List Byte} {o n : Nat} (h : o + n ≤ F.length) :
    memRead F o n = some ((F.drop o).take n) := by simp [memRead, h]

@[simp] theorem beforeFooter_length (F : List Byte) : (beforeFooter F).length = F.length - 4 := by
  simp [beforeFooter]

/-- Before the footer of a frame between markers stand the header marker and the body. -/
@[simp] theorem beforeFooter_betweenMarkers (body : List Byte) :
    beforeFooter (betweenMarkers body) = Config.hdr ++ body := by
  have h : (Config.hdr ++ body ++ Config.ftr).length - 4 = (Config.hdr ++ body).length := by simp; omega
  simp only [beforeFooter, betweenMarkers, h, List.take_left']

@[simp] theorem betweenMarkers_length (body : List Byte) : (betweenMarkers body).length = body.length + 8 := by
  simp only [betweenMarkers, List.length_append, hdr_length, ftr_length]; omega

@[simp] theorem frameOf_length (h : MessageHeader) (payload : List Byte) :
    (frameOf h payload).length = payload.length + 16 := by
  simp [frameOf]; omega

end Sys2Proof

namespace Sys2Proof.Machine

/-- Every point of a frame long enough for `n` points is read (R148). -/
theorem readPoints_inside {F : List Byte} {n : Nat} (h : 20 + 4 * n ≤ F.length) :
    ∃ pts, readPoints F n = some pts ∧ ∀ (i : Nat) (hi : i < n), readPoint F i = some pts[i] := by
  induction n with
  | zero => exact ⟨#v[], rfl, by omega⟩
  | succ n ih =>
    obtain ⟨pts, hp, hi⟩ := ih (by omega)
    obtain ⟨x, hx⟩ := rd16s_inside (F := F) (o := Config.offLpts + Config.ptStride * n)
      (show 20 + 4 * n + 2 ≤ _ by omega)
    obtain ⟨y, hy⟩ := rd16s_inside (F := F) (o := Config.offLpts + Config.ptStride * n + 2)
      (show 20 + 4 * n + 2 + 2 ≤ _ by omega)
    have hpt : readPoint F n = some ⟨x, y, pointValid x y⟩ := by simp [readPoint, hx, hy]
    refine ⟨pts.push ⟨x, y, pointValid x y⟩, by simp [readPoints, hp, hpt], fun i hin => ?_⟩
    rcases Nat.lt_succ_iff_lt_or_eq.mp hin with hlt | rfl
    · simp [Vector.getElem_push_lt hlt, hi i hlt]
    · simp [hpt]

/-- What a read point is: its two coordinates and their validity (R148, R149). -/
theorem readPoint_some {F : List Byte} {i : Nat} {p : LaserPoint} (h : readPoint F i = some p) :
    rd16s F (20 + 4 * i) = some p.x ∧ rd16s F (20 + 4 * i + 2) = some p.y ∧ p.valid = pointValid p.x p.y := by
  cases hx : rd16s F (20 + 4 * i) with
  | none => simp [readPoint, hx] at h
  | some x =>
    cases hy : rd16s F (20 + 4 * i + 2) with
    | none => simp [readPoint, hx, hy] at h
    | some y =>
      simp [readPoint, hx, hy] at h
      subst h
      simp

/-- A slice inside the table is written entry by entry and nothing else changes (R150). -/
theorem writeSlice_inside (ps : List LaserPoint) :
    ∀ (t : Vector LaserPoint Config.tableSize) (k : Nat), k + ps.length ≤ 360 →
    ∃ t', writeSlice t k ps = some t' ∧ ∀ (j : Nat) (hj : j < 360),
      t'[j] = if h : k ≤ j ∧ j < k + ps.length then ps[j - k]'(by omega) else t[j] := by
  induction ps with
  | nil => exact fun t k _ => ⟨t, rfl, fun j hj => by simp⟩
  | cons p ps ih =>
    intro t k hk
    simp only [List.length_cons] at hk
    obtain ⟨t', ht', hj'⟩ := ih (t.set k p (by simp [Config.tableSize]; omega)) (k + 1) (by omega)
    refine ⟨t', by simp [writeSlice, ht', show k < 360 by omega], fun j hj => ?_⟩
    rw [hj' j hj]
    by_cases h1 : k + 1 ≤ j ∧ j < k + 1 + ps.length
    · have h2 : k ≤ j ∧ j < k + (p :: ps).length := by simp; omega
      simp only [dif_pos h1, dif_pos h2]
      have : j - k = (j - (k + 1)) + 1 := by omega
      simp [this]
    · rw [dif_neg h1, Vector.getElem_set]
      by_cases h3 : k = j
      · subst h3; simp
      · have h2 : ¬(k ≤ j ∧ j < k + (p :: ps).length) := by simp; omega
        rw [dif_neg h2, if_neg h3]

/-- A slice that was written stayed inside the table (R47). -/
theorem writeSlice_some {ps : List LaserPoint} :
    ∀ {t t' : Vector LaserPoint Config.tableSize} {k : Nat}, writeSlice t k ps = some t' →
    ps = [] ∨ k + ps.length ≤ 360 := by
  induction ps with
  | nil => exact fun _ => .inl rfl
  | cons p ps ih =>
    intro t t' k h
    simp only [writeSlice] at h
    split at h
    · rename_i hk
      simp only [Config.tableSize] at hk
      rcases ih h with rfl | h'
      · right; simp; omega
      · right; simp; omega
    · simp at h

end Sys2Proof.Machine
end

