-- ==== Sys2Proof/Laws/State.lean ====
section
/-! SUPPORT. One lemma per field per update of State, each true by rfl, and the fields of the reset state. -/

namespace Sys2Proof.Machine

@[simp] theorem State.withDecoded_cfg (s : State) (r : Decoded) : (s.withDecoded r).cfg = s.cfg := rfl
@[simp] theorem State.withDecoded_buf (s : State) (r : Decoded) : (s.withDecoded r).buf = s.buf := rfl
@[simp] theorem State.withDecoded_sensors (s : State) (r : Decoded) : (s.withDecoded r).sensors = r.1 := rfl
@[simp] theorem State.withDecoded_input (s : State) (r : Decoded) : (s.withDecoded r).input = s.input := rfl
@[simp] theorem State.withDecoded_out (s : State) (r : Decoded) : (s.withDecoded r).out = .event r.2 := rfl

@[simp] theorem State.answer_cfg (s : State) (o : Output) : (s.answer o).cfg = s.cfg := rfl
@[simp] theorem State.answer_buf (s : State) (o : Output) : (s.answer o).buf = s.buf := rfl
@[simp] theorem State.answer_sensors (s : State) (o : Output) : (s.answer o).sensors = s.sensors := rfl
@[simp] theorem State.answer_input (s : State) (o : Output) : (s.answer o).input = s.input := rfl
@[simp] theorem State.answer_out (s : State) (o : Output) : (s.answer o).out = o := rfl

@[simp] theorem State.raiseErr_cfg (s : State) (e : ErrCause) : (s.raiseErr e).cfg = s.cfg := rfl
@[simp] theorem State.raiseErr_buf (s : State) (e : ErrCause) : (s.raiseErr e).buf = s.buf := rfl
@[simp] theorem State.raiseErr_sensors (s : State) (e : ErrCause) : (s.raiseErr e).sensors = s.sensors := rfl
@[simp] theorem State.raiseErr_input (s : State) (e : ErrCause) : (s.raiseErr e).input = s.input := rfl
@[simp] theorem State.raiseErr_out (s : State) (e : ErrCause) : (s.raiseErr e).out = .event (.err e) := rfl

@[simp] theorem State.idle_cfg (s : State) : (s.idle).cfg = s.cfg := rfl
@[simp] theorem State.idle_buf (s : State) : (s.idle).buf = s.buf := rfl
@[simp] theorem State.idle_sensors (s : State) : (s.idle).sensors = s.sensors := rfl
@[simp] theorem State.idle_input (s : State) : (s.idle).input = s.input := rfl
@[simp] theorem State.idle_out (s : State) : (s.idle).out = .silent := rfl

@[simp] theorem State.reset_cfg : State.reset.cfg = Config.initial := rfl
@[simp] theorem State.reset_buf : State.reset.buf = [] := rfl
@[simp] theorem State.reset_sensors : State.reset.sensors = resetSensors := rfl
@[simp] theorem State.reset_input : State.reset.input = [] := rfl
@[simp] theorem State.reset_out : State.reset.out = .silent := rfl

@[simp] theorem resetSensors_left : resetSensors.left = resetOdometry := rfl
@[simp] theorem resetSensors_right : resetSensors.right = resetOdometry := rfl

@[simp] theorem resetSensors_laser (k : Nat) (h : k < Config.tableSize) :
    resetSensors.laser[k] = resetPoint := by
  simp [resetSensors]

@[simp] theorem raise_fst (σ : Sensors) (e : ErrCause) : (raise σ e).1 = σ := rfl
@[simp] theorem raise_snd (σ : Sensors) (e : ErrCause) : (raise σ e).2 = .err e := rfl

@[simp] theorem other_fst (σ : Sensors) (h : MessageHeader) : (other σ h).1 = σ := rfl
@[simp] theorem other_snd (σ : Sensors) (h : MessageHeader) : (other σ h).2 = .msg h .noRecord := rfl

@[simp] theorem finishDecode_some (s : State) (r : Decoded) : finishDecode s (some r) = .next (s.withDecoded r) := rfl
@[simp] theorem finishRead_some (s : State) (o : Output) : finishRead s (some o) = .next (s.answer o) := rfl

/-- A decode ends in the next state with its result, or in the one fault. -/
theorem finishDecode_next {s t : State} {d : Option Decoded} (h : finishDecode s d = .next t) :
    ∃ r, d = some r ∧ t = s.withDecoded r := by
  cases d with
  | none => simp [finishDecode] at h
  | some r => exact ⟨r, rfl, by simpa [finishDecode] using h.symm⟩

/-- A read ends in the next state with its value as the output, or in the one fault. -/
theorem finishRead_next {s t : State} {d : Option Output} (h : finishRead s d = .next t) :
    ∃ o, d = some o ∧ t = s.answer o := by
  cases d with
  | none => simp [finishRead] at h
  | some o => exact ⟨o, rfl, by simpa [finishRead] using h.symm⟩

end Sys2Proof.Machine
end

