-- ==== Sys2Proof/Laws/Decoders.lean ====
section
/-! SUPPORT. One lemma per payload decoder that says everything it can do: it ends in an error with the sensor state as it
was, or in a message with exactly its writes. Callers cite these and never unfold a decoder. -/

namespace Sys2Proof.Machine

/-- Everything ODOM can do (R126, R127). -/
theorem odom_cases (σ : Sensors) (F : List Byte) (h : MessageHeader) :
    (F.length < 28 ∧ odom σ F h = some (σ, .err .shortFrame)) ∨
    (28 ≤ F.length ∧ ∃ lc rc ls rs,
      rd32s (beforeFooter F) 0x0c = some lc ∧ rd32s (beforeFooter F) 0x10 = some rc ∧
      rd16s (beforeFooter F) 0x14 = some ls ∧ rd16s (beforeFooter F) 0x16 = some rs ∧
      odom σ F h = some (⟨⟨lc, ls⟩, ⟨rc, rs⟩, σ.laser⟩, .msg h (.odom ⟨lc, ls⟩ ⟨rc, rs⟩))) := by
  by_cases hlen : F.length < 28
  · exact .inl ⟨hlen, by simp [odom, hlen, raise]⟩
  · have hb : (beforeFooter F).length = F.length - 4 := beforeFooter_length F
    obtain ⟨lc, h1⟩ := rd32s_inside (F := beforeFooter F) (o := 0x0c) (by omega)
    obtain ⟨rc, h2⟩ := rd32s_inside (F := beforeFooter F) (o := 0x10) (by omega)
    obtain ⟨ls, h3⟩ := rd16s_inside (F := beforeFooter F) (o := 0x14) (by omega)
    obtain ⟨rs, h4⟩ := rd16s_inside (F := beforeFooter F) (o := 0x16) (by omega)
    exact .inr ⟨by omega, lc, rc, ls, rs, h1, h2, h3, h4, by simp [odom, hlen, h1, h2, h3, h4]⟩

/-- Everything TEXT can do (R136, R137, R138). -/
theorem text_cases (σ : Sensors) (F : List Byte) (h : MessageHeader) :
    (F.length < 20 ∧ text σ F h = some (σ, .err .shortFrame)) ∨
    (20 ≤ F.length ∧ ∃ length, rd32s (beforeFooter F) 0x0c = some length ∧
      (length.toInt < 0 ∨ (F.length : Int) - 20 < length.toInt) ∧ text σ F h = some (σ, .err .textLength)) ∨
    (20 ≤ F.length ∧ ∃ length, rd32s (beforeFooter F) 0x0c = some length ∧
      0 ≤ length.toInt ∧ length.toInt ≤ (F.length : Int) - 20 ∧
      text σ F h =
        some (σ, .msg h (.text (((beforeFooter F).drop 0x10).take length.toInt.toNat ++ [0x00])))) := by
  by_cases hlen : F.length < 20
  · exact .inl ⟨hlen, by simp [text, hlen, raise]⟩
  · have hb : (beforeFooter F).length = F.length - 4 := beforeFooter_length F
    obtain ⟨n, h1⟩ := rd32s_inside (F := beforeFooter F) (o := 0x0c) (by omega)
    by_cases hn : n.toInt < 0 ∨ (F.length : Int) - 20 < n.toInt
    · exact .inr (.inl ⟨by omega, n, h1, hn, by simp [text, hlen, h1, hn, raise]⟩)
    · have hm := memRead_inside (F := beforeFooter F) (o := 0x10) (n := n.toInt.toNat) (by omega)
      exact .inr (.inr ⟨by omega, n, h1, by omega, by omega, by simp [text, hlen, h1, hn, hm]⟩)

/-- Everything LASER can do (R146, R147, R150, R151). -/
theorem laser_cases (σ : Sensors) (F : List Byte) (h : MessageHeader) :
    (F.length < 384 ∧ laser σ F h = some (σ, .err .shortFrame)) ∨
    (384 ≤ F.length ∧ ∃ start, rd32s (beforeFooter F) 0x10 = some start ∧
      (start.toInt < 0 ∨ 270 < start.toInt) ∧ laser σ F h = some (σ, .err .laserIndex)) ∨
    (384 ≤ F.length ∧ ∃ start, rd32s (beforeFooter F) 0x10 = some start ∧
      0 ≤ start.toInt ∧ start.toInt ≤ 270 ∧ ∃ (pts : Vector LaserPoint 90) (table : Vector LaserPoint 360),
      (∀ (i : Nat) (hi : i < 90), readPoint (beforeFooter F) i = some pts[i]) ∧
      (∀ (k : Nat) (hk : k < 360), table[k] =
        if hs : start.toInt.toNat ≤ k ∧ k < start.toInt.toNat + 90
        then pts[k - start.toInt.toNat]'(by omega) else σ.laser[k]) ∧
      laser σ F h = some (⟨σ.left, σ.right, table⟩, .msg h (.laser start.toInt.toNat pts))) := by
  by_cases hlen : F.length < 384
  · exact .inl ⟨hlen, by simp [laser, hlen, raise]⟩
  · have hb : (beforeFooter F).length = F.length - 4 := beforeFooter_length F
    obtain ⟨st, h1⟩ := rd32s_inside (F := beforeFooter F) (o := 0x10) (by omega)
    by_cases hn : st.toInt < 0 ∨ 270 < st.toInt
    · exact .inr (.inl ⟨by omega, st, h1, hn, by simp [laser, hlen, h1, hn, raise]⟩)
    · obtain ⟨pts, hp, hpi⟩ := readPoints_inside (F := beforeFooter F) (n := 90) (by omega)
      obtain ⟨table, ht, htk⟩ := writeSlice_inside pts.toList σ.laser st.toInt.toNat (by simp; omega)
      refine .inr (.inr ⟨by omega, st, h1, by omega, by omega, pts, table, hpi, fun k hk => ?_, ?_⟩)
      · simpa using htk k hk
      · simp [laser, hlen, h1, hn, hp, ht]

/-- Everything FEED can do (R88): the four arms with their tests. -/
theorem feed_cases (m : BufMax) (buf : List Byte) (b : Byte) :
    (endsWithFooter (buf ++ [b]) = true ∧ feed m buf b = ([], .frame (buf ++ [b]))) ∨
    (endsWithFooter (buf ++ [b]) = false ∧ endsWithHeader (buf ++ [b]) = true ∧
      feed m buf b = (Config.hdr, .nothing)) ∨
    (endsWithFooter (buf ++ [b]) = false ∧ endsWithHeader (buf ++ [b]) = false ∧
      full m (buf.length + 1) = true ∧ feed m buf b = ([], .overflow)) ∨
    (endsWithFooter (buf ++ [b]) = false ∧ endsWithHeader (buf ++ [b]) = false ∧
      full m (buf.length + 1) = false ∧ feed m buf b = (buf ++ [b], .nothing)) := by
  cases h1 : endsWithFooter (buf ++ [b]) <;> cases h2 : endsWithHeader (buf ++ [b]) <;>
    cases h3 : full m (buf.length + 1) <;> simp [feed, h1, h2, h3]

/-- The operation a byte selects, with the same tests as FEED's arms (R74). -/
theorem classify_cases (c : Config) (buf : List Byte) (b : Byte) :
    (endsWithFooter (buf ++ [b]) = true ∧ classify c buf b = .syncFooter) ∨
    (endsWithFooter (buf ++ [b]) = false ∧ endsWithHeader (buf ++ [b]) = true ∧
      classify c buf b = .syncHeader) ∨
    (endsWithFooter (buf ++ [b]) = false ∧ endsWithHeader (buf ++ [b]) = false ∧
      full c.bufMax (buf.length + 1) = true ∧ classify c buf b = .syncOverflow b) ∨
    (endsWithFooter (buf ++ [b]) = false ∧ endsWithHeader (buf ++ [b]) = false ∧
      full c.bufMax (buf.length + 1) = false ∧ classify c buf b = .syncAccum b) := by
  cases h1 : endsWithFooter (buf ++ [b]) <;> cases h2 : endsWithHeader (buf ++ [b]) <;>
    cases h3 : full c.bufMax (buf.length + 1) <;> simp [classify, decodeWindow, h1, h2, h3]

end Sys2Proof.Machine
end

