-- ==== Sys2Proof/Laws/Markers.lean ====
section
/-! SUPPORT. The marker tests in terms of the bytes. -/

namespace Sys2Proof

/-- The bytes end with a four-byte marker exactly when they are something and then the marker. -/
theorem endsWith_iff {m bytes : List Byte} (hm : m.length = 4) :
    endsWith m bytes = true ↔ ∃ before, bytes = before ++ m := by
  simp only [endsWith, Bool.and_eq_true, decide_eq_true_eq, beq_iff_eq]
  constructor
  · rintro ⟨_, h⟩
    exact ⟨bytes.take (bytes.length - 4), by rw [← h]; exact (List.take_append_drop _ _).symm⟩
  · rintro ⟨before, rfl⟩
    refine ⟨show 4 ≤ _ by simp; omega, ?_⟩
    rw [show (before ++ m).length - Config.markLen = before.length from
      show (before ++ m).length - 4 = before.length by simp; omega]
    simp

theorem endsWithFooter_iff {bytes : List Byte} :
    endsWithFooter bytes = true ↔ ∃ before, bytes = before ++ Config.ftr := endsWith_iff rfl

theorem endsWithHeader_iff {bytes : List Byte} :
    endsWithHeader bytes = true ↔ ∃ before, bytes = before ++ Config.hdr := endsWith_iff rfl

/-- VALIDATE's first test passes exactly on frames that begin with the header marker. -/
theorem headerBad_eq_false_iff {F : List Byte} : headerBad F = false ↔ ∃ rest, F = Config.hdr ++ rest := by
  simp only [headerBad, Bool.not_eq_false', Bool.and_eq_true, decide_eq_true_eq, beq_iff_eq]
  constructor
  · rintro ⟨_, h⟩
    exact ⟨F.drop 4, by rw [← h]; exact (List.take_append_drop _ _).symm⟩
  · rintro ⟨rest, rfl⟩
    exact ⟨by simp, by simp [Config.hdr]⟩

/-- VALIDATE's second test passes exactly on frames that end with the footer marker. -/
theorem footerBad_eq_false_iff {F : List Byte} : footerBad F = false ↔ ∃ before, F = before ++ Config.ftr := by
  simp only [footerBad, Bool.not_eq_false', endsWithFooter_iff]

/-- A body between the markers passes both tests. -/
@[simp] theorem headerBad_betweenMarkers (body : List Byte) : headerBad (betweenMarkers body) = false :=
  headerBad_eq_false_iff.mpr ⟨body ++ Config.ftr, by simp [betweenMarkers]⟩

@[simp] theorem footerBad_betweenMarkers (body : List Byte) : footerBad (betweenMarkers body) = false :=
  footerBad_eq_false_iff.mpr ⟨Config.hdr ++ body, by simp [betweenMarkers]⟩

/-- The markers share no byte, so a frame that passes both tests is a body between two whole markers (R110). -/
theorem betweenMarkers_of_good {F : List Byte} (hh : headerBad F = false) (hf : footerBad F = false) :
    ∃ body, F = betweenMarkers body := by
  obtain ⟨rest, rfl⟩ := headerBad_eq_false_iff.mp hh
  obtain ⟨before, hb⟩ := footerBad_eq_false_iff.mp hf
  by_cases hlen : 4 ≤ before.length
  · have h1 : before = Config.hdr ++ before.drop 4 := by
      have := congrArg (List.take 4) hb
      rw [List.take_append_of_le_length hlen] at this
      have h2 : before.take 4 = Config.hdr := by rw [← this]; simp [Config.hdr]
      rw [← h2, List.take_append_drop]
    refine ⟨before.drop 4, ?_⟩
    rw [hb, betweenMarkers, ← h1]
  · exfalso
    match before, hlen, hb with
    | [], _, hb => simp [Config.hdr, Config.ftr] at hb
    | [_], _, hb => simp [Config.hdr, Config.ftr] at hb
    | [_, _], _, hb => simp [Config.hdr, Config.ftr] at hb
    | [_, _, _], _, hb => simp [Config.hdr, Config.ftr] at hb
    | _ :: _ :: _ :: _ :: _, hlen, _ => simp at hlen

end Sys2Proof
end

