-- ==== Sys2Proof/Laws/PerInstr.lean ====
section
/-! SUPPORT. Statements made of every operation as syntax, one lemma per constructor. -/

namespace Sys2Proof.Laws

/-- Among the operations whose code is a frame, exactly BADMARK's frame fails VALIDATE (30_encoding.md R75: the other
`frame` rows match both markers). -/
def MarkersOfEncoding.Statement (i : Instr) : Prop :=
  i.wf = true → ∀ F, encode i = some (.frame F) →
    ((headerBad F || footerBad F) = true ↔ ∃ G, i = .decBadmark G)

namespace MarkersOfEncoding

open Sys2Proof

theorem of_good {i : Instr} (hi : ∀ G, i ≠ .decBadmark G)
    (hF : ∀ F, encode i = some (.frame F) → headerBad F = false ∧ footerBad F = false) : Statement i := by
  intro _ F h
  simp only [hF F h, Bool.or_self, Bool.false_eq_true, false_iff, not_exists]
  exact hi

theorem syncFooter : Statement .syncFooter := of_good (by simp) (by simp [encode])
theorem syncHeader : Statement .syncHeader := of_good (by simp) (by simp [encode])
theorem syncOverflow (b : Byte) : Statement (.syncOverflow b) := of_good (by simp) (by simp [encode])
theorem syncAccum (b : Byte) : Statement (.syncAccum b) := of_good (by simp) (by simp [encode])
theorem decOdom (seq : U16) (ts : I32) (payload : List Byte) : Statement (.decOdom seq ts payload) :=
  of_good (by simp) (by rintro _ ⟨⟩; exact ⟨headerBad_betweenMarkers _, footerBad_betweenMarkers _⟩)
theorem decLaser (seq : U16) (ts : I32) (payload : List Byte) : Statement (.decLaser seq ts payload) :=
  of_good (by simp) (by rintro _ ⟨⟩; exact ⟨headerBad_betweenMarkers _, footerBad_betweenMarkers _⟩)
theorem decText (seq : U16) (ts : I32) (payload : List Byte) : Statement (.decText seq ts payload) :=
  of_good (by simp) (by rintro _ ⟨⟩; exact ⟨headerBad_betweenMarkers _, footerBad_betweenMarkers _⟩)
theorem decOther (type : I16) (seq : U16) (ts : I32) (payload : List Byte) : Statement (.decOther type seq ts payload) :=
  of_good (by simp) (by rintro _ ⟨⟩; exact ⟨headerBad_betweenMarkers _, footerBad_betweenMarkers _⟩)
theorem decBadmark (F : List Byte) : Statement (.decBadmark F) := by
  rintro hwf _ ⟨⟩
  exact ⟨fun _ => ⟨F, rfl⟩, fun _ => hwf⟩
theorem decValidate (F : List Byte) : Statement (.decValidate F) := of_good (by simp) (by simp [encode])
theorem decShort (body : List Byte) : Statement (.decShort body) :=
  of_good (by simp) (by rintro _ ⟨⟩; exact ⟨headerBad_betweenMarkers _, footerBad_betweenMarkers _⟩)
theorem decHeader (F : List Byte) : Statement (.decHeader F) := of_good (by simp) (by simp [encode])
theorem decDispatch (type : I16) : Statement (.decDispatch type) := of_good (by simp) (by simp [encode])
theorem reset : Statement .reset := of_good (by simp) (by simp [encode])
theorem rd16s (F : List Byte) (o : Nat) : Statement (.rd16s F o) := of_good (by simp) (by simp [encode])
theorem rd32s (F : List Byte) (o : Nat) : Statement (.rd32s F o) := of_good (by simp) (by simp [encode])
theorem ru16 (F : List Byte) (o : Nat) : Statement (.ru16 F o) := of_good (by simp) (by simp [encode])

end MarkersOfEncoding

end Sys2Proof.Laws
end

