-- ==== Sys2Proof/Laws/Ports.lean ====
section
/-! SUPPORT. The text stream in terms of the record's bytes (70_reset_and_hazards.md R197). -/

namespace Sys2Proof.Machine

/-- The stream's bytes are the record's, in order. -/
@[simp] theorem textStream_map_fst (bytes : List Byte) : (textStream bytes).map Prod.fst = bytes := by
  induction bytes with
  | nil => rfl
  | cons b bs ih =>
    cases bs with
    | nil => rfl
    | cons c cs => simpa [textStream] using ih

@[simp] theorem textStream_length (bytes : List Byte) : (textStream bytes).length = bytes.length := by
  rw [← List.length_map (f := Prod.fst), textStream_map_fst]

/-- `txt_last` is set on the last byte and on no other. -/
theorem textStream_last_iff (bytes : List Byte) (k : Nat) (hk : k < (textStream bytes).length) :
    (textStream bytes)[k].2 = true ↔ k + 1 = bytes.length := by
  induction bytes generalizing k with
  | nil => simp [textStream] at hk
  | cons b bs ih =>
    cases bs with
    | nil => simp at hk; simp [hk, textStream]
    | cons c cs =>
      cases k with
      | zero => simp [textStream]
      | succ k => simp only [textStream, List.getElem_cons_succ]; rw [ih]; simp

end Sys2Proof.Machine
end

