-- ==== Sys2Proof/Tests/Slice0.lean ====
section
/-! SUPPORT. Tests. Every expected value is from spec/95_test_vectors.md (the vector's number is in the comment) or worked out
by hand from the rule named. The witnesses at the end meet the hypotheses of the statements of Obligations.lean. -/

set_option Elab.async false

namespace Sys2Proof.Tests

open Sys2Proof.Machine

/-- The output of a result. -/
def outOf : Result → Option Output
  | .next t => some t.out
  | _ => none

/-- The buffer of a result. -/
def bufOf : Result → Option (List Byte)
  | .next t => some t.buf
  | _ => none

/-- The two readings of a result. -/
def readingsOf : Result → Option (Odometry × Odometry)
  | .next t => some (t.sensors.left, t.sensors.right)
  | _ => none

/-- Some entries of the table of a result. -/
def entriesOf (ks : List (Fin 360)) : Result → Option (List LaserPoint)
  | .next t => some (ks.map fun k => t.sensors.laser[k])
  | _ => none

/-- The reset state with a BUF_MAX, a buffer and the bytes presented. -/
def withBytes (m : BufMax) (buf bytes : List Byte) : State :=
  { State.reset with cfg := ⟨m⟩, buf := buf, input := bytes.map .byte }

/-- A state whose sensor state is not the reset one (95_test_vectors.md section 8). -/
def busy : State :=
  { State.reset with sensors := ⟨⟨11, 22⟩, ⟨33, 44⟩, resetSensors.laser.set 7 ⟨1, 2, true⟩⟩ }

def repeated (n : Nat) : List Byte := List.replicate n 0x55

/-- The points of section 7 as payload bytes: 52 bytes with points 0 to 7, zeros, point 89. -/
def laserPoints : List Byte :=
  [0x64, 0, 0x64, 0, 0x58, 0x02, 0, 0, 0xff, 0x01, 0x01, 0xfe, 0, 0x02, 0, 0, 0, 0, 0, 0xfe, 0, 0x80, 0, 0,
    0x01, 0xfe, 0xff, 0x01, 0xff, 0x01, 0, 0xfe] ++ List.replicate 324 0 ++ [0xff, 0xff, 0x01, 0]

/-- The payload of `LASERF(1, 2, 00 00 00 00, start, pts)` of section 7. -/
def laserPayload (start : List Byte) : List Byte := [0, 0, 0, 0] ++ start ++ laserPoints

/-- The frame of E3. -/
def frameE3 : List Byte :=
  [0x01, 0x02, 0x03, 0x04, 0x01, 0x00, 0x34, 0x12, 0x00, 0x00, 0x01, 0x00, 0xfe, 0xff, 0xff, 0xff,
    0xff, 0xff, 0xff, 0x7f, 0xdc, 0x05, 0x00, 0x80, 0x40, 0x30, 0x20, 0x10]

/-! ### Well-formedness refuses -/

theorem test_wf_other_of_a_known_type : (Instr.decOther 0x0011 0 0 []).wf = false := by decide
theorem test_wf_badmark_of_a_good_frame :
    (Instr.decBadmark [0x01, 0x02, 0x03, 0x04, 0x40, 0x30, 0x20, 0x10]).wf = false := by decide
theorem test_wf_short_of_sixteen_bytes : (Instr.decShort (List.replicate 8 0)).wf = false := by decide
theorem test_wf_header_of_fifteen_bytes : (Instr.decHeader (List.replicate 15 0)).wf = false := by decide
theorem test_wf_rd16s_past_the_end : (Instr.rd16s [1, 2] 1).wf = false := by decide
theorem test_wf_rd32s_past_the_end : (Instr.rd32s [1, 2, 3, 4] 1).wf = false := by decide
theorem test_wf_ru16_past_the_end : (Instr.ru16 [1] 0).wf = false := by decide

/-! ### Decoding the words of the table -/

/-- 30_encoding.md R74: window 40 30 20 10. -/
theorem test_decode_footer : decodeTableWord 32 0x10203040 = some .syncFooter := by decide +kernel
/-- R74: window 01 02 03 04. -/
theorem test_decode_header : decodeTableWord 32 0x04030201 = some .syncHeader := by decide +kernel
/-- F10, a near miss in the last byte. -/
theorem test_decode_accum : decodeTableWord 32 0x11203040 = some (.syncAccum 0x11) := by decide +kernel
/-- F16: 384 bytes and no marker. -/
theorem test_decode_overflow :
    classify ⟨.finite 384⟩ (repeated 383) 0x55 = .syncOverflow 0x55 := by decide +kernel
/-- O3: type bytes 01 00. -/
theorem test_decode_odom :
    decode (.frame [0x01, 0x02, 0x03, 0x04, 0x01, 0, 0x03, 0, 0x04, 0, 0, 0, 0x05, 0, 0, 0, 0xfa, 0xff, 0xff, 0xff,
      0xff, 0xff, 0xff, 0x7f, 0xde, 0xad, 0x40, 0x30, 0x20, 0x10]) =
    .ok (.decOdom 3 4 [0x05, 0, 0, 0, 0xfa, 0xff, 0xff, 0xff, 0xff, 0xff, 0xff, 0x7f, 0xde, 0xad]) := by decide +kernel
/-- L12: type bytes 05 00, no payload. -/
theorem test_decode_laser :
    decode (.frame [0x01, 0x02, 0x03, 0x04, 0x05, 0, 0x01, 0, 0x02, 0, 0, 0, 0x40, 0x30, 0x20, 0x10]) =
    .ok (.decLaser 1 2 []) := by decide +kernel
/-- T1: type bytes 11 00. -/
theorem test_decode_text :
    decode (.frame [0x01, 0x02, 0x03, 0x04, 0x11, 0, 0x01, 0, 0x02, 0, 0, 0, 0, 0, 0, 0, 0x40, 0x30, 0x20, 0x10]) =
    .ok (.decText 1 2 [0, 0, 0, 0]) := by decide +kernel
/-- V14: type bytes 00 00. -/
theorem test_decode_other :
    decode (.frame [0x01, 0x02, 0x03, 0x04, 0, 0, 0, 0, 0, 0, 0, 0, 0xde, 0xad, 0xbe, 0xef, 0x40, 0x30, 0x20, 0x10]) =
    .ok (.decOther 0 0 0 [0xde, 0xad, 0xbe, 0xef]) := by decide +kernel
/-- V4. -/
theorem test_decode_badmark :
    decode (.frame [0x40, 0x30, 0x20, 0x10]) = .ok (.decBadmark [0x40, 0x30, 0x20, 0x10]) := by decide
/-- V9. -/
theorem test_decode_short : decode (.frame [1, 2, 3, 4, 0x40, 0x30, 0x20, 0x10]) = .ok (.decShort []) := by decide

/-! ### The synchronizer -/

/-- S7: the 8-byte frame closes and is too short. -/
theorem test_footer_short : outOf (step (withBytes .infinite [1, 2, 3, 4, 0x40, 0x30, 0x20] [0x10])) =
    some (.event (.err .shortFrame)) := by decide +kernel
/-- E3: byte 27 of the odometry frame closes it. -/
theorem test_footer_odometry :
    readingsOf (step (withBytes .infinite frameE3.dropLast [0x10])) =
      some (⟨-2, 1500⟩, ⟨2147483647, -32768⟩) := by decide +kernel
/-- F6: the header marker discards aa bb. -/
theorem test_header_resync :
    bufOf (step (withBytes .infinite [0xaa, 0xbb, 1, 2, 3] [4])) = some [1, 2, 3, 4] := by decide +kernel
/-- F18: at the limit the header wins over the overflow. -/
theorem test_header_at_limit :
    bufOf (step (withBytes (.finite 384) (repeated 380 ++ [1, 2, 3]) [4])) = some [1, 2, 3, 4] := by decide +kernel
/-- F17: at the limit the footer wins over the overflow (B5: the frame has no header). -/
theorem test_footer_at_limit :
    outOf (step (withBytes (.finite 384) (repeated 380 ++ [0x40, 0x30, 0x20]) [0x10])) =
      some (.event (.err .headerMismatch)) := by decide +kernel
/-- F16. -/
theorem test_overflow_event :
    outOf (step (withBytes (.finite 384) (repeated 383) [0x55])) = some (.event (.err .bufferOverflow)) := by
  decide +kernel
/-- F19: the third byte of a header overflows, and nothing is kept. -/
theorem test_overflow_empties :
    bufOf (step (withBytes (.finite 384) (repeated 381 ++ [1, 2]) [3])) = some [] := by decide +kernel
/-- F15: 383 bytes are below the limit. -/
theorem test_accum_below_limit :
    bufOf (step (withBytes (.finite 384) (repeated 382) [0x55])) = some (repeated 383) := by decide +kernel
/-- F3: three bytes are no footer. -/
theorem test_accum_short_window :
    bufOf (step (withBytes .infinite [0x30, 0x20] [0x10])) = some [0x30, 0x20, 0x10] := by decide +kernel

/-! ### The payload decoders -/

/-- O3: 30 bytes, the two bytes after the last field ignored. -/
theorem test_odom_extra_bytes :
    readingsOf (exec (.decOdom 3 4 [5, 0, 0, 0, 0xfa, 0xff, 0xff, 0xff, 0xff, 0xff, 0xff, 0x7f, 0xde, 0xad]) busy) =
      some (⟨5, -1⟩, ⟨-6, 32767⟩) := by decide +kernel
/-- O2: 27 bytes; both readings stay (section 5, the start state {11, 22}, {33, 44}). -/
theorem test_odom_one_byte_short :
    readingsOf (exec (.decOdom 1 2 (List.replicate 11 0)) busy) = some (⟨11, 22⟩, ⟨33, 44⟩) := by decide +kernel
/-- L2: start 270; point 5, (−32768, 0), is entry 275 and invalid. -/
theorem test_laser_last_slice :
    entriesOf [275] (exec (.decLaser 1 2 (laserPayload [0x0e, 0x01, 0, 0])) busy) =
      some [⟨-32768, 0, false⟩] := by decide +kernel
/-- L3: start 271. -/
theorem test_laser_bad_index :
    outOf (exec (.decLaser 1 2 (laserPayload [0x0f, 0x01, 0, 0])) busy) = some (.event (.err .laserIndex)) := by
  decide +kernel
/-- T10: three of five bytes. -/
theorem test_text_prefix_of_bytes :
    outOf (exec (.decText 1 2 [3, 0, 0, 0, 0x68, 0x65, 0x6c, 0x6c, 0x6f]) busy) =
      some (.event (.msg ⟨17, 1, 2⟩ (.text [0x68, 0x65, 0x6c, 0x00]))) := by decide +kernel
/-- T4: a sixth byte would be the footer's first. -/
theorem test_text_into_footer :
    outOf (exec (.decText 1 2 [6, 0, 0, 0, 0x68, 0x65, 0x6c, 0x6c, 0x6f]) busy) =
      some (.event (.err .textLength)) := by decide +kernel

/-- One text byte on the text stream port (70_reset_and_hazards.md R197): `txt_last` marks the terminating zero. -/
theorem test_text_stream :
    (match exec (.decText 1 2 [1, 0, 0, 0, 0x68]) busy with
    | .next t => t.txt
    | _ => []) = [(0x68, false), (0x00, true)] := by decide +kernel

/-! ### The decoder's common rows -/

/-- V13, through DECODE: the extreme header fields. -/
theorem test_other_extremes :
    (runDecode resetSensors [1, 2, 3, 4, 0x00, 0x80, 0x00, 0x80, 0, 0, 0, 0x80, 0x40, 0x30, 0x20, 0x10]).map Prod.snd =
      some (.msg ⟨-32768, 32768, -2147483648⟩ .noRecord) := by decide +kernel
/-- R119's example. -/
theorem test_other_event :
    outOf (exec (.decOther 2 7 0 []) busy) = some (.event (.msg ⟨2, 7, 0⟩ .noRecord)) := by decide +kernel
/-- V2. -/
theorem test_badmark_both : outOf (exec (.decBadmark [1, 2, 3]) busy) = some (.event (.err .bothMismatch)) := by
  decide +kernel
/-- V8: header good, last four bytes 02 03 04 10. -/
theorem test_badmark_footer :
    outOf (exec (.decBadmark [1, 2, 3, 4, 0x10]) busy) = some (.event (.err .footerMismatch)) := by decide +kernel
/-- R110's example. -/
theorem test_validate_flags :
    outOf (exec (.decValidate [0x40, 0x30, 0x20, 0x10]) busy) = some (.flags true false) := by decide +kernel
/-- V10. -/
theorem test_short_event :
    outOf (exec (.decShort [1, 0, 0, 0, 0, 0, 0]) busy) = some (.event (.err .shortFrame)) := by decide +kernel
/-- R114's example. -/
theorem test_header_fields :
    outOf (exec (.decHeader ([1, 2, 3, 4, 0x01, 0x00, 0x34, 0x12, 0x00, 0x00, 0x01, 0x00] ++ Config.ftr)) busy) =
      some (.header ⟨1, 4660, 65536⟩) := by decide +kernel
/-- R117's examples. -/
theorem test_dispatch_text : outOf (exec (.decDispatch 0x0011) busy) = some (.selected .text) := by decide +kernel
theorem test_dispatch_high_byte : outOf (exec (.decDispatch 0x0111) busy) = some (.selected .other) := by
  decide +kernel
/-- R185. -/
theorem test_reset_readings : readingsOf (exec .reset busy) = some (⟨0, 0⟩, ⟨0, 0⟩) := by decide +kernel
theorem test_reset_entry : entriesOf [7] (exec .reset busy) = some [⟨0, 0, false⟩] := by decide +kernel

/-! ### The primitives (section 2) -/

theorem test_rd16s_negative : outOf (exec (.rd16s [0, 0x06, 0xff] 1) busy) = some (.i16 (-250)) := by decide +kernel
theorem test_rd16s_toInt : (rd16s [0x00, 0x80] 0).map BitVec.toInt = some (-32768) := by decide +kernel
/-- A middle byte ≥ 0x80 is not sign-extended (U2). -/
theorem test_rd32s_middle_byte : (rd32s [0x00, 0x80, 0x00, 0x00] 0).map BitVec.toInt = some 32768 := by decide +kernel
theorem test_rd32s_negative : outOf (exec (.rd32s [0xfe, 0xff, 0xff, 0xff] 0) busy) = some (.i32 (-2)) := by
  decide +kernel
theorem test_ru16_unsigned : (ru16 [0xff, 0xff] 0).map BitVec.toNat = some 65535 := by decide +kernel
theorem test_ru16_output : outOf (exec (.ru16 [0x34, 0x12] 0) busy) = some (.u16 4660) := by decide +kernel

/-! ### Validity at its edges (L1) and the codes (R160) -/

theorem test_valid_edges :
    (pointValid 511 (-511), pointValid 512 0, pointValid 0 (-512), pointValid (-32768) 0, pointValid 600 0) =
      (true, false, false, false, false) := by decide +kernel
theorem test_codes :
    [ErrCause.headerMismatch, .footerMismatch, .bothMismatch, .shortFrame, .textLength, .laserIndex,
      .bufferOverflow].map ErrCause.code = [1, 2, 3, 4, 5, 6, 7] := by decide

/-! ### The first step after reset on a table word -/

theorem test_first_step_header :
    outOf (step (State.reset.withFetchWord 32 0x04030201)) = some .silent := by decide +kernel
/-- A laser frame of zeros with start 0 writes entry 0 as (0, 0, true) (E5: "written, and (0,0) is valid"). -/
theorem test_first_step_runs_the_row :
    entriesOf [0] (step (State.reset.withFetchWord 48 0x000504030201)) = some [⟨0, 0, true⟩] := by decide +kernel

end Sys2Proof.Tests
end

