-- ==== Sys2Proof/Tests/Witnesses.lean ====
section
/-! SUPPORT. For every statement of Obligations.lean that has hypotheses, concrete states and operands that meet all of them
together; for a statement of several clauses, one for each clause at the edge of its range. Statements without hypotheses
need none: WindowSelectsTheRow and OdometryOverwritesBothReadings, say, hold of every value. -/

set_option Elab.async false

namespace Sys2Proof.Tests

open Sys2Proof.Machine

/-- Three bytes of a footer accumulated and the fourth presented, reset presented after it. -/
def closing : State :=
  { State.reset with buf := [0x40, 0x30, 0x20], input := [.byte 0x10, .reset] }

/-- Three bytes of a header and the fourth presented. -/
def resyncing : State := withBytes .infinite [0xaa, 0x01, 0x02, 0x03] [0x04]

/-- One byte below BUF_MAX = 384, a byte of no marker presented. -/
def brim : State := withBytes (.finite 384) (repeated 383) [0x55]

/-- Two bytes below BUF_MAX = 384: the last byte that accumulates. -/
def belowBrim : State := withBytes (.finite 384) (repeated 382) [0x55]

theorem witness_StepRunsSelectedOperation :
    State.reset.input = [] ∧ closing.input = .byte 0x10 :: [.reset] ∧
    { closing with input := [.reset] }.input = .reset :: [] := ⟨rfl, rfl, rfl⟩

theorem witness_DecodeInvertsEncode :
    (Instr.decOther 2 65535 (-1) [0xff]).wf = true ∧
    encode (.decOther 2 65535 (-1) [0xff]) = some (.frame (frameOf ⟨2, 65535, -1⟩ [0xff])) := by decide

/-- The four clauses of TypeBytesSelectTheRow; the last at 01 01, whose low byte alone is odometry's (V15). -/
theorem witness_TypeBytesSelectTheRow :
    ((0x01 : Byte) = 0x01 ∧ (0x00 : Byte) = 0x00) ∧ ((0x05 : Byte) = 0x05 ∧ (0x00 : Byte) = 0x00) ∧
    ((0x11 : Byte) = 0x11 ∧ (0x00 : Byte) = 0x00) ∧
    ¬((0x01 : Byte) = 0x00 ∧ ((0x01 : Byte) = 0x01 ∨ (0x01 : Byte) = 0x05 ∨ (0x01 : Byte) = 0x11)) := by decide

/-- The last offset that fits, for SignedRead16, UnsignedRead16 and SignedRead32. -/
theorem witness_SignedRead16 : 1 + 2 ≤ ([0x00, 0x06, 0xff] : List Byte).length := by decide
theorem witness_UnsignedRead16 : 0 + 2 ≤ ([0xff, 0xff] : List Byte).length := by decide
theorem witness_SignedRead32 : 0 + 4 ≤ ([0xfe, 0xff, 0xff, 0xff] : List Byte).length := by decide
theorem witness_WideReadIsTwoNarrowReads : rd32s [0x00, 0x80, 0x00, 0x01] 0 = some 0x01008000 := by decide +kernel

/-- The first offset that does not fit, each clause; a frame of 15 bytes. -/
theorem witness_ReadsOutsideTheFrameStop :
    ([0x00] : List Byte).length < 0 + 2 ∧ ([0x00, 0x00, 0x00] : List Byte).length < 0 + 4 ∧
    (List.replicate 15 (0 : Byte)).length < 16 := by decide

theorem witness_BadMarkersAreReportedTogether :
    headerBad [0x40, 0x30, 0x20, 0x10] = true ∧ footerBad [0x01, 0x02, 0x03, 0x04] = true ∧
    headerBad (betweenMarkers []) = false ∧ footerBad (betweenMarkers []) = false := by decide

theorem witness_ShortFrameIsAnError : (List.replicate 7 (0 : Byte)).length < 8 := by decide
theorem witness_HeaderIsParsedFromFixedOffsets : 16 ≤ (frameOf ⟨2, 7, 0⟩ []).length := by decide
theorem witness_UnrecognisedTypeIsAccepted :
    (257 : I16) ≠ 0x0001 ∧ (257 : I16) ≠ 0x0005 ∧ (257 : I16) ≠ 0x0011 := by decide

/-- T1 and T3: both ends of the accepted lengths. -/
theorem witness_TextIsCopiedAndTerminated :
    (0 ≤ (0 : I32).toInt ∧ (0 : I32).toInt ≤ (([] : List Byte).length : Int)) ∧
    (0 ≤ (5 : I32).toInt ∧ (5 : I32).toInt ≤ ((List.replicate 5 (0 : Byte)).length : Int)) := by decide

/-- Start 0 and 270: both ends of the accepted indices. -/
theorem witness_LaserWritesNinetyEntries :
    ([0xde, 0xad, 0xbe, 0xef] : List Byte).length = 4 ∧ (List.replicate 90 ((5, 5) : I16 × I16)).length = 90 ∧
    (0 ≤ (0 : I32).toInt ∧ (0 : I32).toInt ≤ 270) ∧ (0 ≤ (270 : I32).toInt ∧ (270 : I32).toInt ≤ 270) := by
  decide +kernel

/-- Payloads one byte short (O2, T2, 383 bytes of laser), the lengths of T4 and T7, the indices 271 and −1 (L3, L4). -/
theorem witness_FailedChecksWriteNothing :
    (List.replicate 11 (0 : Byte)).length < 12 ∧ (List.replicate 3 (0 : Byte)).length < 4 ∧
    ((List.replicate 5 (0 : Byte)).length : Int) < (6 : I32).toInt ∧ (-1 : I32).toInt < 0 ∧
    (List.replicate 367 (0 : Byte)).length < 368 ∧ ([0xde, 0xad, 0xbe, 0xef] : List Byte).length = 4 ∧
    360 ≤ (List.replicate 360 (0 : Byte)).length ∧ 270 < (271 : I32).toInt := by
  simp only [List.length_replicate]
  decide

theorem witness_FooterClosesTheFrame :
    closing.input = .byte 0x10 :: [.reset] ∧ closing.buf ++ [0x10] = [] ++ [0x40, 0x30, 0x20, 0x10] := ⟨rfl, rfl⟩

theorem witness_HeaderResynchronises :
    resyncing.input = .byte 0x04 :: [] ∧ resyncing.buf ++ [0x04] = [0xaa] ++ [0x01, 0x02, 0x03, 0x04] := ⟨rfl, rfl⟩

/-- Bytes that end with 0x55 end with no marker. -/
theorem no_marker_after_55 (bytes : List Byte) :
    (¬ ∃ before, bytes ++ [0x55] = before ++ [0x40, 0x30, 0x20, 0x10]) ∧
    (¬ ∃ before, bytes ++ [0x55] = before ++ [0x01, 0x02, 0x03, 0x04]) := by
  constructor <;> rintro ⟨before, h⟩ <;> simpa using congrArg List.getLast? h

theorem witness_OtherBytesAccumulate :
    belowBrim.input = .byte 0x55 :: [] ∧
    (¬ ∃ before, belowBrim.buf ++ [0x55] = before ++ [0x40, 0x30, 0x20, 0x10]) ∧
    (¬ ∃ before, belowBrim.buf ++ [0x55] = before ++ [0x01, 0x02, 0x03, 0x04]) ∧
    (∀ n, belowBrim.cfg.bufMax = .finite n → belowBrim.buf.length + 1 < n) := by
  refine ⟨rfl, (no_marker_after_55 _).1, (no_marker_after_55 _).2, ?_⟩
  rintro n h
  simp only [belowBrim, withBytes, BufMax.finite.injEq] at h
  subst h
  decide +kernel

theorem witness_OverflowEmptiesTheBuffer :
    brim.input = .byte 0x55 :: [] ∧
    (¬ ∃ before, brim.buf ++ [0x55] = before ++ [0x40, 0x30, 0x20, 0x10]) ∧
    (¬ ∃ before, brim.buf ++ [0x55] = before ++ [0x01, 0x02, 0x03, 0x04]) ∧
    brim.cfg.bufMax = .finite 384 ∧ 384 ≤ brim.buf.length + 1 :=
  ⟨rfl, (no_marker_after_55 _).1, (no_marker_after_55 _).2, rfl, by decide +kernel⟩

theorem witness_ResetClearsEverything : { busy with input := [.reset, .byte 1] }.input = .reset :: [.byte 1] := rfl

theorem witness_StepIsFeedThenDecode : brim.input = .byte 0x55 :: [] := rfl

/-- Each of the four orders of ErrorPriority, and a footer at the limit. -/
theorem witness_ErrorPriority :
    (headerBad [0x40, 0x30, 0x20, 0x10] = true ∧ footerBad [0x40, 0x30, 0x20, 0x10] = false) ∧
    (headerBad [0x01, 0x02, 0x03, 0x04] = false ∧ footerBad [0x01, 0x02, 0x03, 0x04] = true) ∧
    (headerBad [] = true ∧ footerBad [] = true) ∧
    (headerBad (betweenMarkers (List.replicate 7 0)) = false ∧ footerBad (betweenMarkers (List.replicate 7 0)) = false ∧
      (betweenMarkers (List.replicate 7 0)).length < 16) ∧
    closing.buf ++ [0x10] = [] ++ [0x40, 0x30, 0x20, 0x10] ∧ ∃ t, step closing = .next t := by
  refine ⟨by decide, by decide, by decide, by decide, rfl, ?_⟩
  exact ⟨_, rfl⟩

/-- An operation and a step that end in an error. -/
theorem witness_ErrorsLeaveTheSensorState :
    (∃ t, exec (.decShort []) busy = .next t ∧ t.out = .event (.err .shortFrame)) ∧
    (∃ t, step closing = .next t ∧ t.out = .event (.err .headerMismatch)) :=
  ⟨⟨_, rfl, rfl⟩, ⟨_, rfl, rfl⟩⟩

theorem witness_WhoWritesWhat : ∃ t, exec (.syncAccum 0x55) busy = .next t := ⟨_, rfl⟩

theorem witness_BufferChangesInThreeWays : closing.input = .byte 0x10 :: [.reset] ∧ ∃ t, step closing = .next t :=
  ⟨rfl, _, rfl⟩

theorem witness_StepNeverReportsTheFooter : ∃ t, step closing = .next t := ⟨_, rfl⟩

theorem witness_DecodingTwiceChangesNothing :
    runDecode busy.sensors [0x40, 0x30, 0x20, 0x10] = some (busy.sensors, .err .headerMismatch) := rfl

/-- Two states that differ in their sensor state. -/
theorem witness_SensorStateDoesNotInfluenceSteps :
    closing.cfg = { closing with sensors := busy.sensors }.cfg ∧
    closing.buf = { closing with sensors := busy.sensors }.buf ∧
    closing.input = { closing with sensors := busy.sensors }.input ∧
    (∃ t, step closing = .next t) ∧ (∃ t, step { closing with sensors := busy.sensors } = .next t) :=
  ⟨rfl, rfl, rfl, ⟨_, rfl⟩, ⟨_, rfl⟩⟩

/-- T1, the shortest text frame. -/
theorem witness_TextRecordLength :
    runDecode resetSensors (frameOf ⟨0x0011, 1, 2⟩ [0, 0, 0, 0]) =
      some (resetSensors, .msg ⟨0x0011, 1, 2⟩ (.text [0x00])) := rfl

/-- The last address of the table, the first after it, and the last entry of the slice L2 writes. -/
theorem witness_TablePortReadsTheTable :
    (359 : BitVec 9).toNat < 360 ∧ 360 ≤ (360 : BitVec 9).toNat ∧
    ∃ t h pts, exec (.decLaser 1 2 (laserPayload [0x0e, 0x01, 0, 0])) busy = .next t ∧
      t.out = .event (.msg h (.laser 270 pts)) ∧ 270 ≤ (359 : BitVec 9).toNat ∧ (359 : BitVec 9).toNat < 270 + 90 := by
  refine ⟨by decide, by decide, ?_⟩
  have h : (match exec (.decLaser 1 2 (laserPayload [0x0e, 0x01, 0, 0])) busy with
    | .next t => (match t.out with
      | .event (.msg _ (.laser start _)) => start == 270
      | _ => false)
    | _ => false) = true := by decide +kernel
  split at h
  · rename_i t ht
    split at h
    · rename_i m start pts ho
      exact ⟨t, m, pts, ht, by rw [ho, eq_of_beq h], by decide, by decide⟩
    · exact absurd h (by simp)
  · exact absurd h (by simp)

/-- A state of the invariant in mid-footer, a reset behind it: for StepKeepsTheInvariant, BufferTailIsNoMarker and
CandidateFramesHaveOneFooter. -/
theorem witness_Inv : Inv closing := by
  refine ⟨rfl, trivial, ⟨fun p h => ?_, fun p h4 h => ?_⟩, fun k hk h => ?_⟩
  · have h1 := h.1
    have h2 : p < 3 := h.2.1
    omega
  · have h2 : p < 3 := h.2.1
    omega
  · have hl : closing.sensors.laser[k] = resetPoint := resetSensors_laser k hk
    rw [hl] at h
    simp [resetPoint] at h

theorem witness_StepKeepsTheInvariant : Inv closing ∧ ∃ t, step closing = .next t := ⟨witness_Inv, _, rfl⟩

/-- The header alone: the second clause of BufferTailIsNoMarker. -/
theorem witness_BufferTailIsNoMarker :
    { State.reset with buf := [0x01, 0x02, 0x03, 0x04] }.buf = [] ++ [0x01, 0x02, 0x03, 0x04] := rfl

theorem witness_CandidateFramesHaveOneFooter :
    Inv closing ∧ closing.input = .byte 0x10 :: [.reset] ∧ classify closing.cfg closing.buf 0x10 = .syncFooter :=
  ⟨witness_Inv, rfl, by decide⟩

/-- Room for exactly three more bytes below BUF_MAX = 384: FooterBytesAlwaysClose, HeaderBytesAlwaysResync. -/
theorem witness_FooterBytesAlwaysClose :
    BelowCapacity (withBytes (.finite 384) (repeated 380) []).cfg.bufMax
      ((withBytes (.finite 384) (repeated 380) []).buf.length + 3) := by
  change (repeated 380).length + 3 < 384
  decide +kernel

theorem witness_HeaderBytesAlwaysResync :
    BelowCapacity (withBytes (.finite 384) (repeated 380) []).cfg.bufMax
      ((withBytes (.finite 384) (repeated 380) []).buf.length + 3) := witness_FooterBytesAlwaysClose

/-- V11, the minimum frame, with 380 bytes of noise before it. -/
theorem witness_CleanMessagesAreReceivedWhole :
    CleanFrame (frameOf ⟨2, 7, 0⟩ []) ∧
    BelowCapacity (withBytes (.finite 384) (repeated 380) []).cfg.bufMax
      ((withBytes (.finite 384) (repeated 380) []).buf.length + 3) ∧
    (∀ n, (withBytes (.finite 384) (repeated 380) []).cfg.bufMax = .finite n → (frameOf ⟨2, 7, 0⟩ []).length ≤ n) := by
  refine ⟨⟨by decide, by decide, fun p h => ?_, fun p h => ?_⟩, witness_FooterBytesAlwaysClose, fun n h => ?_⟩
  · have h2 : p < 16 := h.2.1
    revert h
    interval_cases p <;> decide
  · have h2 : p < 16 := h.2.1
    revert h
    interval_cases p <;> decide
  · simp only [withBytes, BufMax.finite.injEq] at h
    subst h
    decide

/-- A stall up to the last byte below BUF_MAX. -/
theorem witness_StallOnlyAccumulates :
    BelowCapacity { belowBrim with buf := [0x55] }.cfg.bufMax ([0x55].length + (repeated 2).length) ∧
    ∀ p, ([0x55] : List Byte).length ≤ p →
      ¬ markerEndsAt Config.ftr ([0x55] ++ repeated 2) p ∧ ¬ markerEndsAt Config.hdr ([0x55] ++ repeated 2) p := by
  refine ⟨show 1 + (repeated 2).length < 384 by decide, fun p _ => ⟨fun h => ?_, fun h => ?_⟩⟩ <;>
    · have h1 := h.1
      have h2 : p < 3 := h.2.1
      omega

/-- One byte below BUF_MAX, one byte of no marker: the overflow comes at once. -/
theorem witness_StallEndsInOverflow :
    brim.cfg.bufMax = .finite 384 ∧ ([0x55] : List Byte) ≠ [] ∧ 384 ≤ brim.buf.length + ([0x55] : List Byte).length ∧
    ∀ p, brim.buf.length ≤ p →
      ¬ markerEndsAt Config.ftr (brim.buf ++ [0x55]) p ∧ ¬ markerEndsAt Config.hdr (brim.buf ++ [0x55]) p := by
  have hb : brim.buf = List.replicate 383 0x55 := rfl
  have hall : ∀ m : List Byte, m.length = 4 → (∀ x ∈ m, x ≠ 0x55) → ∀ p, 383 ≤ p →
      ¬ markerEndsAt m (List.replicate 384 0x55) p := by
    intro m hm hx p _ h
    have h3 := h.2.2
    cases m with
    | nil => simp at hm
    | cons x xs =>
      have hxm : x ∈ (List.drop (p - 3) (List.replicate 384 (0x55 : Byte))).take Config.markLen := by rw [h3]; simp
      have := List.eq_of_mem_replicate (List.mem_of_mem_drop (List.mem_of_mem_take hxm))
      exact hx x (by simp) this
  refine ⟨rfl, by simp, by decide +kernel, fun p hp => ?_⟩
  rw [hb] at hp ⊢
  rw [show List.replicate 383 (0x55 : Byte) ++ [0x55] = List.replicate 384 0x55 from List.replicate_succ'.symm]
  simp only [List.length_replicate] at hp
  exact ⟨hall _ rfl (by decide) p hp, hall _ rfl (by decide) p hp⟩

/-- An operation of each of the three outputs: an error, a message, no event. -/
theorem witness_EventPortsShowTheEvent :
    (∃ t, exec (.decShort []) busy = .next t ∧ t.out = .event (.err .shortFrame)) ∧
    (∃ t, exec (.decOther 2 7 0 []) busy = .next t ∧ t.out = .event (.msg ⟨2, 7, 0⟩ .noRecord)) ∧
    (∃ t, exec .syncHeader busy = .next t ∧ t.out = .silent) := ⟨⟨_, rfl, rfl⟩, ⟨_, rfl, rfl⟩, ⟨_, rfl, rfl⟩⟩

/-- T1 and an odometry frame of zeros; the laser record is L2's, at the last start (witness_TablePortReadsTheTable). -/
theorem witness_RecordsAreReadFromThePorts :
    (∃ t, exec (.decText 1 2 [0, 0, 0, 0]) busy = .next t ∧ t.out = .event (.msg ⟨0x0011, 1, 2⟩ (.text [0x00]))) ∧
    (∃ t, exec (.decOdom 1 2 (List.replicate 12 0)) busy = .next t ∧
      t.out = .event (.msg ⟨0x0001, 1, 2⟩ (.odom ⟨0, 0⟩ ⟨0, 0⟩))) ∧
    (∃ t h pts, exec (.decLaser 1 2 (laserPayload [0x0e, 0x01, 0, 0])) busy = .next t ∧
      t.out = .event (.msg h (.laser 270 pts))) := by
  refine ⟨⟨_, rfl, rfl⟩, ⟨_, rfl, rfl⟩, ?_⟩
  obtain ⟨t, h, pts, ht, ho, _⟩ := witness_TablePortReadsTheTable.2.2
  exact ⟨t, h, pts, ht, ho⟩

theorem witness_IllFormedOtherAndShortRun :
    dispatch 0x0011 ≠ .other ∧ 8 ≤ (List.replicate 8 (0 : Byte)).length := by decide

end Sys2Proof.Tests
end

section
/-! SUPPORT. What DECODE can do with a frame: it ends in an error, or runs the payload decoder its type selects. It always
ends in a result (00_scope.md R12), so that SYNC.FOOTER has one too. -/

namespace Sys2Proof.Machine

/-- Everything DECODE can do (R113): the two checks before the HEADER, then one payload decoder. -/
theorem runDecode_cases (σ : Sensors) (F : List Byte) :
    (∃ e, markerError (headerBad F) (footerBad F) = some e ∧ runDecode σ F = some (σ, .err e)) ∨
    (markerError (headerBad F) (footerBad F) = none ∧ F.length < 16 ∧
      runDecode σ F = some (σ, .err .shortFrame)) ∨
    (markerError (headerBad F) (footerBad F) = none ∧ 16 ≤ F.length ∧
      ∃ h, parseHeader (beforeFooter F) = some h ∧
        ((dispatch h.type = .odom ∧ runDecode σ F = odom σ F h) ∨
          (dispatch h.type = .text ∧ runDecode σ F = text σ F h) ∨
          (dispatch h.type = .laser ∧ runDecode σ F = laser σ F h) ∨
          (dispatch h.type = .other ∧ runDecode σ F = some (other σ h)))) := by
  cases hmark : markerError (headerBad F) (footerBad F) with
  | some e => exact .inl ⟨e, rfl, by simp [runDecode, hmark, raise]⟩
  | none =>
    by_cases hlen : F.length < 16
    · exact .inr (.inl ⟨rfl, hlen, by simp [runDecode, hmark, hlen, raise]⟩)
    · obtain ⟨h, hh⟩ := parseHeader_inside (F := beforeFooter F) (by rw [beforeFooter_length]; omega)
      refine .inr (.inr ⟨rfl, by omega, h, hh, ?_⟩)
      cases hd : dispatch h.type <;> simp [runDecode, hmark, hlen, hh, hd]

theorem odom_some (σ : Sensors) (F : List Byte) (h : MessageHeader) : ∃ r, odom σ F h = some r := by
  obtain ⟨_, ho⟩ | ⟨_, _, _, _, _, _, _, _, _, ho⟩ := odom_cases σ F h
  · exact ⟨_, ho⟩
  · exact ⟨_, ho⟩

theorem text_some (σ : Sensors) (F : List Byte) (h : MessageHeader) : ∃ r, text σ F h = some r := by
  obtain ⟨_, ht⟩ | ⟨_, _, _, _, ht⟩ | ⟨_, _, _, _, _, ht⟩ := text_cases σ F h
  · exact ⟨_, ht⟩
  · exact ⟨_, ht⟩
  · exact ⟨_, ht⟩

theorem laser_some (σ : Sensors) (F : List Byte) (h : MessageHeader) : ∃ r, laser σ F h = some r := by
  obtain ⟨_, hl⟩ | ⟨_, _, _, _, hl⟩ | ⟨_, _, _, _, _, _, _, _, _, hl⟩ := laser_cases σ F h
  · exact ⟨_, hl⟩
  · exact ⟨_, hl⟩
  · exact ⟨_, hl⟩

/-- DECODE of any frame has a result: none of its reads and writes leaves the frame or the table. -/
theorem runDecode_some (σ : Sensors) (F : List Byte) : ∃ r, runDecode σ F = some r := by
  obtain ⟨e, _, hr⟩ | ⟨_, _, hr⟩ | ⟨_, _, h, _, ⟨_, hr⟩ | ⟨_, hr⟩ | ⟨_, hr⟩ | ⟨_, hr⟩⟩ := runDecode_cases σ F
  · exact ⟨_, hr⟩
  · exact ⟨_, hr⟩
  · rw [hr]; exact odom_some σ F h
  · rw [hr]; exact text_some σ F h
  · rw [hr]; exact laser_some σ F h
  · exact ⟨_, hr⟩

end Sys2Proof.Machine
end

section
/-! SUPPORT. Which synchronizer row a step runs for a byte, from what the buffer with the byte ends with. -/

namespace Sys2Proof

/-- A byte that completes the footer is the footer's last. -/
theorem eq_ftrLast_of_append {buf before : List Byte} {b : Byte} (h : buf ++ [b] = before ++ Config.ftr) :
    b = Config.ftrLast := by
  simpa [Config.ftrLast, Config.ftr] using congrArg List.getLast? h

/-- The markers' last bytes differ, so bytes that end with a header end with no footer. -/
theorem endsWithFooter_append_hdr (before : List Byte) : endsWithFooter (before ++ Config.hdr) = false := by
  rw [Bool.eq_false_iff, ne_eq, endsWithFooter_iff]
  rintro ⟨before', h⟩
  simpa [Config.hdr, Config.ftr] using congrArg List.getLast? h

/-- There is room exactly when no finite BUF_MAX is reached (R93). -/
theorem full_eq_false_iff {m : BufMax} {len : Nat} : full m len = false ↔ ∀ n, m = .finite n → len < n := by
  cases m with
  | infinite => simp [full]
  | finite n => simp [full]

namespace Machine

variable {c : Config} {buf before : List Byte} {b : Byte}

theorem classify_eq_syncFooter (h : buf ++ [b] = before ++ Config.ftr) : classify c buf b = .syncFooter := by
  have hftr : endsWithFooter (buf ++ [b]) = true := endsWithFooter_iff.mpr ⟨before, h⟩
  simpa [hftr] using classify_cases c buf b

theorem classify_eq_syncHeader (h : buf ++ [b] = before ++ Config.hdr) : classify c buf b = .syncHeader := by
  have hftr : endsWithFooter (buf ++ [b]) = false := h ▸ endsWithFooter_append_hdr before
  have hhdr : endsWithHeader (buf ++ [b]) = true := endsWithHeader_iff.mpr ⟨before, h⟩
  simpa [hftr, hhdr] using classify_cases c buf b

theorem classify_eq_syncAccum (hftr : ¬ ∃ before, buf ++ [b] = before ++ Config.ftr)
    (hhdr : ¬ ∃ before, buf ++ [b] = before ++ Config.hdr)
    (hroom : ∀ n, c.bufMax = .finite n → buf.length + 1 < n) : classify c buf b = .syncAccum b := by
  rw [← endsWithFooter_iff, Bool.not_eq_true] at hftr
  rw [← endsWithHeader_iff, Bool.not_eq_true] at hhdr
  simpa [hftr, hhdr, full_eq_false_iff.mpr hroom] using classify_cases c buf b

/-- A presented byte is taken off the input and runs the row it selects (R88). -/
theorem step_byte {s : State} {rest : List HostInput} (h : s.input = .byte b :: rest) :
    step s = exec (classify s.cfg s.buf b) { s with input := rest } := by
  simp [step, fetch, h]

end Machine
end Sys2Proof
end

section
/-! The synchronizer's rows as steps (40_synchronizer.md section 3). -/

namespace Sys2Proof.Machine

/-- Settles O25: the row is SYNC.FOOTER, and the decode it runs always has a result. -/
theorem footerClosesTheFrame : Obligations.FooterClosesTheFrame := by
  intro s b rest before hin hbuf
  obtain ⟨r, hr⟩ := runDecode_some s.sensors (s.buf ++ [b])
  refine ⟨r, hr, ?_⟩
  calc step s = exec .syncFooter { s with input := rest } := by
        rw [step_byte hin, classify_eq_syncFooter hbuf]
    _ = finishDecode { s with buf := [], input := rest } (runDecode s.sensors (s.buf ++ [b])) := by
        rw [eq_ftrLast_of_append hbuf]; rfl
    _ = .next { s with buf := [], sensors := r.1, input := rest, out := .event r.2 } := by
        rw [hr]; rfl

/-- Settles O26: the row is SYNC.HEADER, since bytes that end with the header marker end with no footer. -/
theorem headerResynchronises : Obligations.HeaderResynchronises := by
  intro s b rest before hin hbuf
  rw [step_byte hin, classify_eq_syncHeader hbuf]
  rfl

/-- Settles O27: with neither marker complete and room in the buffer the row is SYNC.ACCUM. -/
theorem otherBytesAccumulate : Obligations.OtherBytesAccumulate := by
  intro s b rest hin hftr hhdr hroom
  rw [step_byte hin, classify_eq_syncAccum hftr hhdr hroom]
  rfl

end Sys2Proof.Machine
end

section
/-! SUPPORT. The values of the reads in terms of the bytes, and the MessageHeader of a frame. -/

namespace Sys2Proof

/-- R10: the signed reading of 16 bits. -/
theorem toInt_ofNat_eq_toS16 {u : Nat} (h : u < 2 ^ 16) : (BitVec.ofNat 16 u).toInt = toS16 u := by
  rw [BitVec.toInt_eq_toNat_cond, BitVec.toNat_ofNat, Nat.mod_eq_of_lt h, toS16]
  split <;> split <;> omega

/-- R10: the signed reading of 32 bits. -/
theorem toInt_ofNat_eq_toS32 {u : Nat} (h : u < 2 ^ 32) : (BitVec.ofNat 32 u).toInt = toS32 u := by
  rw [BitVec.toInt_eq_toNat_cond, BitVec.toNat_ofNat, Nat.mod_eq_of_lt h, toS32]
  split <;> split <;> omega

variable {F : List Byte} {o : Nat}

theorem rd16s_value (h : o + 2 ≤ F.length) :
    ∃ v, rd16s F o = some v ∧
      v.toInt = toS16 ((F[o]'(by omega)).toNat + 256 * (F[o + 1]'(by omega)).toNat) :=
  ⟨_, by rw [rd16s, unsigned16_inside h, Option.map_some], toInt_ofNat_eq_toS16 (by omega)⟩

theorem ru16_value (h : o + 2 ≤ F.length) :
    ∃ v, ru16 F o = some v ∧
      v.toNat = (F[o]'(by omega)).toNat + 256 * (F[o + 1]'(by omega)).toNat :=
  ⟨_, by rw [ru16, unsigned16_inside h, Option.map_some],
    by rw [BitVec.toNat_ofNat, Nat.mod_eq_of_lt (by omega)]⟩

theorem rd32s_value (h : o + 4 ≤ F.length) :
    ∃ v, rd32s F o = some v ∧
      v.toInt = toS32 ((F[o]'(by omega)).toNat + 2 ^ 8 * (F[o + 1]'(by omega)).toNat +
        2 ^ 16 * (F[o + 2]'(by omega)).toNat + 2 ^ 24 * (F[o + 3]'(by omega)).toNat) :=
  ⟨_, by rw [rd32s, unsigned32_inside h, Option.map_some], toInt_ofNat_eq_toS32 (by omega)⟩

/-- HEADER's three values (R114). -/
theorem parseHeader_value (h : 12 ≤ F.length) :
    ∃ m, parseHeader F = some m ∧
      m.type.toInt = toS16 (F[4].toNat + 256 * F[5].toNat) ∧
      m.seq.toNat = F[6].toNat + 256 * F[7].toNat ∧
      m.ts.toInt = toS32 (F[8].toNat + 2 ^ 8 * F[9].toNat + 2 ^ 16 * F[10].toNat + 2 ^ 24 * F[11].toNat) := by
  obtain ⟨type, htype, vtype⟩ := rd16s_value (F := F) (o := 4) (by omega)
  obtain ⟨seq, hseq, vseq⟩ := ru16_value (F := F) (o := 6) (by omega)
  obtain ⟨ts, hts, vts⟩ := rd32s_value (F := F) (o := 8) (by omega)
  exact ⟨⟨type, seq, ts⟩, by simp [parseHeader, htype, hseq, hts], vtype, vseq, vts⟩

/-- The MessageHeader a frame was built with is read back from it (R73, R114). -/
theorem parseHeader_frameOf (h : MessageHeader) (payload : List Byte) :
    parseHeader (beforeFooter (frameOf h payload)) = some h := by
  have htype := rd16s_le16 Config.hdr (le16 h.seq ++ (le32 h.ts ++ payload)) h.type (o := 4) rfl
  have hseq := ru16_le16 (Config.hdr ++ le16 h.type) (le32 h.ts ++ payload) h.seq (o := 6) rfl
  have hts := rd32s_le32 (Config.hdr ++ le16 h.type ++ le16 h.seq) payload h.ts (o := 8) rfl
  simp only [List.append_assoc] at hseq hts
  simp [parseHeader, frameOf, htype, hseq, hts]

/-- Everything DISPATCH can select (R117): four exclusive cases of the type. -/
theorem dispatch_cases (type : I16) :
    (type = 1#16 ∧ dispatch type = .odom) ∨ (type = 17#16 ∧ dispatch type = .text) ∨
    (type = 5#16 ∧ dispatch type = .laser) ∨
    (type ≠ 1#16 ∧ type ≠ 17#16 ∧ type ≠ 5#16 ∧ dispatch type = .other) := by
  by_cases hodom : type = 1#16
  · exact .inl ⟨hodom, by simp [dispatch, hodom]⟩
  by_cases htext : type = 17#16
  · exact .inr (.inl ⟨htext, by simp [dispatch, htext]⟩)
  by_cases hlaser : type = 5#16
  · exact .inr (.inr (.inl ⟨hlaser, by simp [dispatch, hlaser]⟩))
  · exact .inr (.inr (.inr ⟨hodom, htext, hlaser, by simp [dispatch, hodom, htext, hlaser]⟩))

theorem dispatch_eq_other {type : I16} (hodom : type ≠ 1#16) (htext : type ≠ 17#16) (hlaser : type ≠ 5#16) :
    dispatch type = .other := by
  simpa [hodom, htext, hlaser] using dispatch_cases type

end Sys2Proof
end

section
/-! SUPPORT. DECODE's message event carries the MessageHeader of its frame; a frame of an unrecognised type is decoded by
OTHER. -/

namespace Sys2Proof.Machine

variable {σ σ₁ : Sensors} {F : List Byte} {h h₁ : MessageHeader} {rec : Record}

theorem odom_msg_header (hr : odom σ F h = some (σ₁, .msg h₁ rec)) : h₁ = h := by
  obtain ⟨_, ho⟩ | ⟨_, _, _, _, _, _, _, _, _, ho⟩ := odom_cases σ F h
  · rw [ho] at hr; cases hr
  · rw [ho] at hr; cases hr; rfl

theorem text_msg_header (hr : text σ F h = some (σ₁, .msg h₁ rec)) : h₁ = h := by
  obtain ⟨_, ht⟩ | ⟨_, _, _, _, ht⟩ | ⟨_, _, _, _, _, ht⟩ := text_cases σ F h
  · rw [ht] at hr; cases hr
  · rw [ht] at hr; cases hr
  · rw [ht] at hr; cases hr; rfl

theorem laser_msg_header (hr : laser σ F h = some (σ₁, .msg h₁ rec)) : h₁ = h := by
  obtain ⟨_, hl⟩ | ⟨_, _, _, _, hl⟩ | ⟨_, _, _, _, _, _, _, _, _, hl⟩ := laser_cases σ F h
  · rw [hl] at hr; cases hr
  · rw [hl] at hr; cases hr
  · rw [hl] at hr; cases hr; rfl

/-- Whatever payload decoder runs, a message event carries the header HEADER parsed (R114, R118). -/
theorem runDecode_msg_header (hr : runDecode σ F = some (σ₁, .msg h₁ rec)) :
    parseHeader (beforeFooter F) = some h₁ := by
  obtain ⟨_, _, hd⟩ | ⟨_, _, hd⟩ | ⟨_, _, h, hh, ⟨_, hd⟩ | ⟨_, hd⟩ | ⟨_, hd⟩ | ⟨_, hd⟩⟩ := runDecode_cases σ F
  all_goals rw [hd] at hr
  · cases hr
  · cases hr
  · rwa [odom_msg_header hr]
  · rwa [text_msg_header hr]
  · rwa [laser_msg_header hr]
  · cases hr; exact hh

/-- With good markers and a whole header, a type DISPATCH knows no decoder for ends in OTHER's message (R113, R119). -/
theorem runDecode_frameOf_other (payload : List Byte) (hd : dispatch h.type = .other) :
    runDecode σ (frameOf h payload) = some (σ, .msg h .noRecord) := by
  have hmark : markerError (headerBad (frameOf h payload)) (footerBad (frameOf h payload)) = none := by
    simp [frameOf, markerError]
  simpa [hmark, parseHeader_frameOf, hd, other] using runDecode_cases σ (frameOf h payload)

end Sys2Proof.Machine
end

section
/-! The decoder's common rows and the read primitives (41_decoder_common.md). -/

namespace Sys2Proof.Machine

/-- Settles O15: HEADER reads before the footer, where a frame of 16 bytes or more has its bytes 4 to 11, and DECODE's
message carries what the same HEADER read. -/
theorem headerIsParsedFromFixedOffsets : Obligations.HeaderIsParsedFromFixedOffsets := by
  intro F s hlen
  obtain ⟨m, hm, htype, hseq, hts⟩ := parseHeader_value (F := beforeFooter F) (by rw [beforeFooter_length]; omega)
  simp only [beforeFooter, List.getElem_take] at htype hseq hts
  refine ⟨m, ?_, htype, hseq, hts, fun σ σ₁ h rec hr => ?_⟩
  · simp [exec, execDecHeader, hm, State.answer]
  · exact Option.some.inj ((runDecode_msg_header hr).symm.trans hm)

/-- Settles O16: the selector is the whole type, and a signed 16-bit value is its bits. -/
theorem dispatchByFullType : Obligations.DispatchByFullType := by
  intro type s
  have h1 : type.toInt = 1 ↔ type = 1#16 := BitVec.toInt_inj (y := 1)
  have h17 : type.toInt = 17 ↔ type = 17#16 := BitVec.toInt_inj (y := 17)
  have h5 : type.toInt = 5 ↔ type = 5#16 := BitVec.toInt_inj (y := 5)
  refine ⟨dispatch type, rfl, ?_⟩
  simp only [ne_eq, h1, h17, h5]
  obtain ⟨rfl, _⟩ | ⟨rfl, _⟩ | ⟨rfl, _⟩ | ⟨hodom, htext, hlaser, hd⟩ := dispatch_cases type
  · decide
  · decide
  · decide
  · simp [hodom, htext, hlaser, hd]

/-- Settles O17: OTHER's answer by itself, and DECODE reaches OTHER on the frame. -/
theorem unrecognisedTypeIsAccepted : Obligations.UnrecognisedTypeIsAccepted := by
  rintro type seq ts payload s ⟨hodom, hlaser, htext⟩
  exact ⟨rfl, runDecode_frameOf_other payload (dispatch_eq_other hodom htext hlaser)⟩

/-- Settles O7: the read lies inside the frame, so its value is the output. -/
theorem signedRead16 : Obligations.SignedRead16 := by
  intro F o s h
  obtain ⟨v, hv, hval⟩ := rd16s_value h
  exact ⟨v, by simp [exec, execRd16s, hv, State.answer], hval⟩

/-- Settles O8: the read lies inside the frame, so its value is the output. -/
theorem signedRead32 : Obligations.SignedRead32 := by
  intro F o s h
  obtain ⟨v, hv, hval⟩ := rd32s_value h
  exact ⟨v, by simp [exec, execRd32s, hv, State.answer], hval⟩

end Sys2Proof.Machine
end

section
/-! SUPPORT. The payload of a frame: what DECODE reads from offset 0x0c on is what the frame was built with. TEXT on a frame
whose length field the frame holds. -/

namespace Sys2Proof

/-- Before the footer stand the 12 bytes of marker and MessageHeader, then the payload (R45, R73). -/
theorem beforeFooter_frameOf (h : MessageHeader) (payload : List Byte) :
    beforeFooter (frameOf h payload) = (Config.hdr ++ (le16 h.type ++ le16 h.seq ++ le32 h.ts)) ++ payload := by
  simp only [frameOf, beforeFooter_betweenMarkers, List.append_assoc]

theorem drop_beforeFooter_frameOf (h : MessageHeader) (payload : List Byte) (k : Nat) :
    (beforeFooter (frameOf h payload)).drop (12 + k) = payload.drop k := by
  rw [beforeFooter_frameOf]
  exact List.drop_length_add_append (l₁ := Config.hdr ++ (le16 h.type ++ le16 h.seq ++ le32 h.ts)) k

/-- A 32-bit field of the payload is read back from the frame (R73, R106). -/
theorem rd32s_beforeFooter_frameOf (h : MessageHeader) (before after : List Byte) (v : I32) {o : Nat}
    (ho : o = 12 + before.length) :
    rd32s (beforeFooter (frameOf h (before ++ (le32 v ++ after)))) o = some v := by
  rw [beforeFooter_frameOf, ← List.append_assoc]
  exact rd32s_le32 _ after v (by simp; omega)

namespace Machine

/-- TEXT copies as many bytes after the length field as the field says, when the frame holds them (R135). -/
theorem text_frameOf (σ : Sensors) (h : MessageHeader) {length : I32} {rest : List Byte}
    (hnonneg : 0 ≤ length.toInt) (hheld : length.toInt ≤ rest.length) :
    text σ (frameOf h (le32 length ++ rest)) h =
      some (σ, .msg h (.text (rest.take length.toInt.toNat ++ [0x00]))) := by
  have hlen : (frameOf h (le32 length ++ rest)).length = rest.length + 20 := by simp; omega
  have hfield : rd32s (beforeFooter (frameOf h (le32 length ++ rest))) 0x0c = some length :=
    rd32s_beforeFooter_frameOf h [] rest length rfl
  have hbytes : (beforeFooter (frameOf h (le32 length ++ rest))).drop 0x10 = rest :=
    drop_beforeFooter_frameOf h (le32 length ++ rest) 4
  obtain ⟨hshort, _⟩ | ⟨_, n, hn, hbad, _⟩ | ⟨_, n, hn, _, _, htext⟩ :=
    text_cases σ (frameOf h (le32 length ++ rest)) h
  · omega
  · obtain rfl : length = n := Option.some.inj (hfield.symm.trans hn)
    omega
  · obtain rfl : length = n := Option.some.inj (hfield.symm.trans hn)
    rw [htext, hbytes]

end Machine
end Sys2Proof
end

section
/-! The text decoder (43_decode_text.md). -/

namespace Sys2Proof.Machine

/-- Settles O19: the length field is one the frame holds, so TEXT ends in its message and writes no state. -/
theorem textIsCopiedAndTerminated : Obligations.TextIsCopiedAndTerminated := by
  intro seq ts length rest s hnonneg hheld
  calc exec (.decText seq ts (le32 length ++ rest)) s
      = finishDecode s (text s.sensors (frameOf ⟨Config.typeText, seq, ts⟩ (le32 length ++ rest))
          ⟨Config.typeText, seq, ts⟩) := rfl
    _ = .next { s with
          out := .event (.msg ⟨0x0011, seq, ts⟩ (.text (rest.take length.toInt.toNat ++ [0x00]))) } := by
        rw [text_frameOf s.sensors _ hnonneg hheld]; rfl

end Sys2Proof.Machine
end

section
/-! SUPPORT. What the decoder reads from the frames the encoder builds (30_encoding.md section 9), and that every byte
sequence is such a frame. -/

namespace Sys2Proof

/-- Fewer than four bytes end with no marker. -/
theorem endsWith_of_short {m bytes : List Byte} (h : bytes.length < 4) : endsWith m bytes = false := by
  simp [endsWith, h]

theorem decodeWindow_single (full : Bool) (b : Byte) :
    decodeWindow full [] b = if full then .syncOverflow b else .syncAccum b := by
  simp [decodeWindow, endsWithFooter, endsWithHeader, endsWith_of_short]

theorem decodeFrame_of_bad {F : List Byte} (h : (headerBad F || footerBad F) = true) :
    decodeFrame F = .ok (.decBadmark F) := by
  simp only [decodeFrame, h, if_true]

theorem decodeFrame_betweenMarkers_short {body : List Byte} (h : body.length < 8) :
    decodeFrame (betweenMarkers body) = .ok (.decShort body) := by
  have hlen : body.length + 8 < 16 := by omega
  simp [decodeFrame, hlen, Config.hdr]

/-- The payload a frame was built with (20_memory.md R45). -/
@[simp] theorem payloadOf_frameOf (h : MessageHeader) (payload : List Byte) :
    payloadOf (frameOf h payload) = payload := drop_beforeFooter_frameOf h payload 0

@[simp] theorem headerBad_frameOf (h : MessageHeader) (payload : List Byte) : headerBad (frameOf h payload) = false :=
  headerBad_betweenMarkers _

@[simp] theorem footerBad_frameOf (h : MessageHeader) (payload : List Byte) : footerBad (frameOf h payload) = false :=
  footerBad_betweenMarkers _

/-- A built frame selects the row of its type, with the fields it was built from (R63, R73). -/
theorem decodeFrame_frameOf (h : MessageHeader) (payload : List Byte) :
    decodeFrame (frameOf h payload) = .ok (frameInstr h payload) := by
  simp [decodeFrame, parseHeader_frameOf]

/-- The row of a frame is well formed and its code is the frame, whichever of the four rows the type selects. -/
theorem frameInstr_wf_encode (h : MessageHeader) (payload : List Byte) :
    (frameInstr h payload).wf = true ∧ encode (frameInstr h payload) = some (.frame (frameOf h payload)) := by
  obtain ⟨type, seq, ts⟩ := h
  obtain ⟨rfl, hd⟩ | ⟨rfl, hd⟩ | ⟨rfl, hd⟩ | ⟨_, _, _, hd⟩ := dispatch_cases type <;>
    simp [frameInstr, hd, Instr.wf, encode]

/-- Two bytes, read as one field, are written back as they were. -/
theorem le16_append (b₀ b₁ : Byte) : le16 (b₁ ++ b₀) = [b₀, b₁] :=
  congrArg₂ (fun lo hi => [lo, hi]) BitVec.extractLsb'_append_eq_right BitVec.extractLsb'_append_eq_left

/-- A 16-bit field is its two bytes. -/
theorem append_inj_bytes {a₀ a₁ b₀ b₁ : Byte} (h : a₁ ++ a₀ = b₁ ++ b₀) : a₁ = b₁ ∧ a₀ = b₀ := by
  have hle : [a₀, a₁] = [b₀, b₁] := by rw [← le16_append, ← le16_append, h]
  simp only [List.cons.injEq, and_true] at hle
  exact hle.symm

theorem le32_append (lo hi : BitVec 16) : le32 (hi ++ lo) = le16 lo ++ le16 hi := by
  have h₀ : (hi ++ lo).extractLsb' 0 8 = lo.extractLsb' 0 8 := BitVec.extractLsb'_append_eq_of_add_le (by decide)
  have h₁ : (hi ++ lo).extractLsb' 8 8 = lo.extractLsb' 8 8 := BitVec.extractLsb'_append_eq_of_add_le (by decide)
  have h₂ : (hi ++ lo).extractLsb' 16 8 = hi.extractLsb' 0 8 := BitVec.extractLsb'_append_eq_of_le (by decide)
  have h₃ : (hi ++ lo).extractLsb' 24 8 = hi.extractLsb' 8 8 := BitVec.extractLsb'_append_eq_of_le (by decide)
  calc le32 (hi ++ lo)
      = [(hi ++ lo).extractLsb' 0 8, (hi ++ lo).extractLsb' 8 8, (hi ++ lo).extractLsb' 16 8,
          (hi ++ lo).extractLsb' 24 8] := rfl
    _ = le16 lo ++ le16 hi := by rw [h₀, h₁, h₂, h₃]; rfl

theorem le32_append_bytes (b₀ b₁ b₂ b₃ : Byte) : le32 ((b₃ ++ b₂) ++ (b₁ ++ b₀)) = [b₀, b₁, b₂, b₃] :=
  (le32_append _ _).trans (by rw [le16_append, le16_append]; rfl)

/-- A body of eight bytes or more is a MessageHeader and a payload (R62, R73). -/
theorem betweenMarkers_eq_frameOf {body : List Byte} (h : 8 ≤ body.length) :
    ∃ m payload, betweenMarkers body = frameOf m payload := by
  match body, h with
  | t₀ :: t₁ :: q₀ :: q₁ :: s₀ :: s₁ :: s₂ :: s₃ :: payload, _ =>
    exact ⟨⟨t₁ ++ t₀, q₁ ++ q₀, (s₃ ++ s₂) ++ (s₁ ++ s₀)⟩, payload, by
      simp only [frameOf, le16_append, le32_append_bytes, List.cons_append, List.nil_append]⟩

/-- Everything a byte sequence can be to the decoder (R75): a frame with a bad marker, a frame under 16 bytes, or a built
frame. -/
theorem frame_cases (F : List Byte) :
    (headerBad F || footerBad F) = true ∨ (∃ body, body.length < 8 ∧ F = betweenMarkers body) ∨
    ∃ h payload, F = frameOf h payload := by
  cases hbad : headerBad F || footerBad F with
  | true => exact .inl rfl
  | false =>
    rw [Bool.or_eq_false_iff] at hbad
    obtain ⟨body, rfl⟩ := betweenMarkers_of_good hbad.1 hbad.2
    by_cases hlen : body.length < 8
    · exact .inr (.inl ⟨body, hlen, rfl⟩)
    · exact .inr (.inr (betweenMarkers_eq_frameOf (by omega)))

end Sys2Proof
end

section
/-! The two encodings (30_encoding.md). -/

namespace Sys2Proof

/-- Settles O4: the four window rows and BADMARK by their tests, the other frame rows by what a built frame decodes to. -/
theorem decodeInvertsEncode : Obligations.DecodeInvertsEncode := by
  intro i c hwf henc
  cases i <;> simp only [encode, reduceCtorEq, Option.some.injEq] at henc <;> subst henc
  case syncFooter => decide
  case syncHeader => decide
  case syncOverflow b => simp only [decode, decodeWindow_single, if_true]
  case syncAccum b => simp [decode, decodeWindow_single]
  case decOdom seq ts payload => exact decodeFrame_frameOf _ payload
  case decLaser seq ts payload => exact decodeFrame_frameOf _ payload
  case decText seq ts payload => exact decodeFrame_frameOf _ payload
  case decOther type seq ts payload =>
    have hd : dispatch type = .other := by simpa [Instr.wf] using hwf
    simp [decode, decodeFrame_frameOf, frameInstr, hd]
  case decBadmark F => exact decodeFrame_of_bad hwf
  case decShort body =>
    have hlen : body.length + 8 < 16 := by simpa [Instr.wf] using hwf
    exact decodeFrame_betweenMarkers_short (by omega)

/-- Settles O5: each of the three kinds of byte sequence is the code of the row it selects. -/
theorem everyFrameHasOneReading : Obligations.EveryFrameHasOneReading := by
  intro F
  obtain hbad | ⟨body, hlen, rfl⟩ | ⟨h, payload, rfl⟩ := frame_cases F
  · exact ⟨_, decodeFrame_of_bad hbad, hbad, rfl⟩
  · exact ⟨_, decodeFrame_betweenMarkers_short hlen, by simp [Instr.wf]; omega, rfl⟩
  · exact ⟨_, decodeFrame_frameOf h payload, frameInstr_wf_encode h payload⟩

/-- Settles O6: the two type bytes are the type of a built frame, least significant first. -/
theorem typeBytesSelectTheRow : Obligations.TypeBytesSelectTheRow := by
  intro t₀ t₁ seq ts payload F
  have hF : F = frameOf ⟨t₁ ++ t₀, seq, ts⟩ payload := by
    simp [F, frameOf, betweenMarkers, le16_append, Config.hdr, Config.ftr]
  rw [hF, decodeFrame_frameOf]
  refine ⟨?_, ?_, ?_, fun hother => ?_⟩
  · rintro ⟨rfl, rfl⟩; rfl
  · rintro ⟨rfl, rfl⟩; rfl
  · rintro ⟨rfl, rfl⟩; rfl
  · have hd : dispatch (t₁ ++ t₀) = .other := by
      apply dispatch_eq_other <;> intro h
      · obtain ⟨rfl, rfl⟩ := append_inj_bytes (b₁ := 0) (b₀ := 1) h
        exact hother (by simp)
      · obtain ⟨rfl, rfl⟩ := append_inj_bytes (b₁ := 0) (b₀ := 17) h
        exact hother (by simp)
      · obtain ⟨rfl, rfl⟩ := append_inj_bytes (b₁ := 0) (b₀ := 5) h
        exact hother (by simp)
    simp [frameInstr, hd]

/-- Settles O2: the table words by evaluation, the frames as the codes of their operations. -/
theorem sampleCodesDecode : Obligations.SampleCodesDecode :=
  ⟨by decide, by decide, by decide, decodeInvertsEncode _ _ (by decide) rfl, decodeInvertsEncode _ _ (by decide) rfl,
    decodeInvertsEncode _ _ (by decide) rfl, decodeInvertsEncode _ _ (by decide) rfl,
    decodeInvertsEncode _ _ (by decide) rfl, decodeInvertsEncode _ _ (by decide) rfl⟩

end Sys2Proof
end

section
/-! SUPPORT. The event of a frame decides the decode: which event it is depends on the frame alone, and the sensor state
after it is the one before with the event's record written over it. -/

namespace Sys2Proof

/-- The table with the 90 points of a slice over its entries from `start` on (R150). -/
def sliceWritten (table : Vector LaserPoint 360) (start : Nat) (pts : Vector LaserPoint 90) : Vector LaserPoint 360 :=
  Vector.ofFn fun k => if h : start ≤ k ∧ k < start + 90 then pts[k - start]'(by omega) else table[k]

@[simp] theorem getElem_sliceWritten (table : Vector LaserPoint 360) (start : Nat) (pts : Vector LaserPoint 90) (k : Nat)
    (hk : k < 360) :
    (sliceWritten table start pts)[k] =
      if h : start ≤ k ∧ k < start + 90 then pts[k - start]'(by omega) else table[k] := by
  simp [sliceWritten]

theorem eq_sliceWritten_of_getElem {table table' : Vector LaserPoint 360} {start : Nat} {pts : Vector LaserPoint 90}
    (h : ∀ (k : Nat) (hk : k < 360), table'[k] =
      if h : start ≤ k ∧ k < start + 90 then pts[k - start]'(by omega) else table[k]) :
    table' = sliceWritten table start pts :=
  Vector.ext fun k hk => by rw [h k hk, getElem_sliceWritten]

@[simp] theorem sliceWritten_sliceWritten (table : Vector LaserPoint 360) (start : Nat) (pts : Vector LaserPoint 90) :
    sliceWritten (sliceWritten table start pts) start pts = sliceWritten table start pts :=
  Vector.ext fun k hk => by simp only [getElem_sliceWritten]; split <;> rfl

/-- The sensor state with a record written over it (41_decoder_common.md section 3). -/
def Record.applyTo : Record → Sensors → Sensors
  | .odom left right, σ => { σ with left := left, right := right }
  | .laser start pts, σ => { σ with laser := sliceWritten σ.laser start pts }
  | .text _, σ => σ
  | .noRecord, σ => σ

/-- The sensor state after an event: a message writes its record, an error nothing (R166). -/
def Event.applyTo : Event → Sensors → Sensors
  | .msg _ r, σ => r.applyTo σ
  | .err _, σ => σ

@[simp] theorem Event.applyTo_err (c : ErrCause) (σ : Sensors) : (Event.err c).applyTo σ = σ := rfl
@[simp] theorem Event.applyTo_msg (h : MessageHeader) (r : Record) (σ : Sensors) :
    (Event.msg h r).applyTo σ = r.applyTo σ := rfl
@[simp] theorem Record.applyTo_odom (left right : Odometry) (σ : Sensors) :
    (Record.odom left right).applyTo σ = ⟨left, right, σ.laser⟩ := rfl
@[simp] theorem Record.applyTo_text (bytes : List Byte) (σ : Sensors) : (Record.text bytes).applyTo σ = σ := rfl
@[simp] theorem Record.applyTo_laser (start : Nat) (pts : Vector LaserPoint 90) (σ : Sensors) :
    (Record.laser start pts).applyTo σ = ⟨σ.left, σ.right, sliceWritten σ.laser start pts⟩ := rfl
@[simp] theorem Record.applyTo_noRecord (σ : Sensors) : Record.noRecord.applyTo σ = σ := rfl

/-- A second write of the same event changes nothing. -/
@[simp] theorem Event.applyTo_applyTo (e : Event) (σ : Sensors) : e.applyTo (e.applyTo σ) = e.applyTo σ := by
  rcases e with ⟨h, _ | _ | _ | _⟩ | c <;> simp

/-- What a frame's bytes make sure of in the record: a text ends in a zero and its bytes stood before the footer (R135),
a slice lies in the table and its points carry their validity (R147, R149). -/
def Record.FromFrame (F : List Byte) : Record → Prop
  | .text bytes => bytes.getLast? = some 0x00 ∧ bytes.length + 19 ≤ F.length
  | .laser start pts => start ≤ 270 ∧ ∀ (i : Nat) (hi : i < 90), pts[i].valid = pointValid pts[i].x pts[i].y
  | .odom _ _ => True
  | .noRecord => True

/-- What a frame's bytes make sure of in the event: overflow is no decoder's error, and a bad footer is reported only of
a frame that has one (R111). -/
def Event.FromFrame (F : List Byte) : Event → Prop
  | .msg _ r => r.FromFrame F
  | .err c => c ≠ .bufferOverflow ∧ (footerBad F = false → c ≠ .footerMismatch ∧ c ≠ .bothMismatch)

theorem Event.fromFrame_err {F : List Byte} {c : ErrCause} (h : c = .shortFrame ∨ c = .textLength ∨ c = .laserIndex) :
    (Event.err c).FromFrame F := by
  rcases h with rfl | rfl | rfl <;> simp [Event.FromFrame]

theorem Event.fromFrame_markerError {F : List Byte} {c : ErrCause}
    (h : markerError (headerBad F) (footerBad F) = some c) : (Event.err c).FromFrame F := by
  cases hh : headerBad F <;> cases hf : footerBad F <;> rw [hh, hf] at h <;> cases h <;> simp [Event.FromFrame, hf]

namespace Machine

/-- The event `e` is all that decoding does: from every sensor state it is the event, and its record is the write. -/
def Emits (decode : Sensors → Option Decoded) (e : Event) : Prop := ∀ σ, decode σ = some (e.applyTo σ, e)

variable (F : List Byte) (h : MessageHeader)

theorem odom_emits : ∃ e, e.FromFrame F ∧ Emits (odom · F h) e := by
  obtain ⟨hlen, _⟩ | ⟨hlen, lc, rc, ls, rs, hlc, hrc, hls, hrs, _⟩ := odom_cases resetSensors F h
  · exact ⟨.err .shortFrame, Event.fromFrame_err (by simp), fun σ => by
      simpa [hlen, hlen.not_ge] using odom_cases σ F h⟩
  · refine ⟨.msg h (.odom ⟨lc, ls⟩ ⟨rc, rs⟩), trivial, fun σ => ?_⟩
    simpa [hlen, hlen.not_gt, hlc, hrc, hls, hrs] using odom_cases σ F h

theorem text_emits : ∃ e, e.FromFrame F ∧ Emits (text · F h) e := by
  obtain ⟨hlen, _⟩ | ⟨hlen, n, hn, hbad, _⟩ | ⟨hlen, n, hn, hnonneg, hheld, _⟩ := text_cases resetSensors F h
  · exact ⟨.err .shortFrame, Event.fromFrame_err (by simp), fun σ => by
      simpa [hlen, hlen.not_ge] using text_cases σ F h⟩
  · refine ⟨.err .textLength, Event.fromFrame_err (by simp), fun σ => ?_⟩
    obtain ⟨_, _⟩ | ⟨_, _, _, _, ht⟩ | ⟨_, n', hn', _, _, _⟩ := text_cases σ F h
    · omega
    · exact ht
    · cases hn.symm.trans hn'
      omega
  · refine ⟨.msg h (.text (((beforeFooter F).drop 0x10).take n.toInt.toNat ++ [0x00])), ?_, fun σ => ?_⟩
    · exact ⟨by simp, by simp; omega⟩
    · obtain ⟨_, _⟩ | ⟨_, n', hn', _, _⟩ | ⟨_, n', hn', _, _, ht⟩ := text_cases σ F h
      · omega
      · cases hn.symm.trans hn'
        omega
      · cases hn.symm.trans hn'
        exact ht

theorem laser_emits : ∃ e, e.FromFrame F ∧ Emits (laser · F h) e := by
  obtain ⟨hlen, _⟩ | ⟨hlen, start, hstart, hbad, _⟩ | ⟨hlen, start, hstart, _, _, pts, _, hpts, _, _⟩ :=
    laser_cases resetSensors F h
  · exact ⟨.err .shortFrame, Event.fromFrame_err (by simp), fun σ => by
      simpa [hlen, hlen.not_ge] using laser_cases σ F h⟩
  · refine ⟨.err .laserIndex, Event.fromFrame_err (by simp), fun σ => ?_⟩
    obtain ⟨_, _⟩ | ⟨_, _, _, _, hl⟩ | ⟨_, start', hstart', _, _, _⟩ := laser_cases σ F h
    · omega
    · exact hl
    · cases hstart.symm.trans hstart'
      omega
  · refine ⟨.msg h (.laser start.toInt.toNat pts), ?_, fun σ => ?_⟩
    · exact ⟨by omega, fun i hi => (readPoint_some (hpts i hi)).2.2⟩
    · obtain ⟨_, _⟩ | ⟨_, start', hstart', _, _⟩ | ⟨_, start', hstart', _, _, pts', table, hpts', htable, hl⟩ :=
        laser_cases σ F h
      · omega
      · cases hstart.symm.trans hstart'
        omega
      · cases hstart.symm.trans hstart'
        have hsame : pts' = pts :=
          Vector.ext fun i hi => Option.some.inj ((hpts' i hi).symm.trans (hpts i hi))
        exact hl.trans (by rw [eq_sliceWritten_of_getElem htable, hsame, Event.applyTo_msg, Record.applyTo_laser])

/-- The payload decoder the parsed type selects (R117). -/
def decodePayload (σ : Sensors) : Option Decoded :=
  match dispatch h.type with
  | .odom => odom σ F h
  | .text => text σ F h
  | .laser => laser σ F h
  | .other => some (other σ h)

variable {F h}

theorem runDecode_of_markerError {c : ErrCause} (hmark : markerError (headerBad F) (footerBad F) = some c)
    (σ : Sensors) : runDecode σ F = some (σ, .err c) := by
  simpa [hmark] using runDecode_cases σ F

theorem runDecode_of_short (hmark : markerError (headerBad F) (footerBad F) = none) (hlen : F.length < 16)
    (σ : Sensors) : runDecode σ F = some (σ, .err .shortFrame) := by
  simpa [hmark, hlen, hlen.not_ge] using runDecode_cases σ F

theorem runDecode_of_header (hmark : markerError (headerBad F) (footerBad F) = none) (hlen : 16 ≤ F.length)
    (hh : parseHeader (beforeFooter F) = some h) (σ : Sensors) : runDecode σ F = decodePayload F h σ := by
  have hcases := runDecode_cases σ F
  simp only [hmark, reduceCtorEq, false_and, exists_false, hlen.not_gt, hlen, hh, Option.some.injEq,
    exists_eq_left', true_and, false_or] at hcases
  obtain ⟨hd, hr⟩ | ⟨hd, hr⟩ | ⟨hd, hr⟩ | ⟨hd, hr⟩ := hcases <;> simp only [hr, decodePayload, hd]

variable (F h)

theorem decodePayload_emits : ∃ e, e.FromFrame F ∧ Emits (decodePayload F h) e := by
  unfold Emits decodePayload
  cases dispatch h.type with
  | odom => exact odom_emits F h
  | text => exact text_emits F h
  | laser => exact laser_emits F h
  | other => exact ⟨.msg h .noRecord, trivial, fun _ => rfl⟩

/-- DECODE of a frame has one event, whatever the sensor state (10_state.md section 8). -/
theorem runDecode_emits : ∃ e, e.FromFrame F ∧ Emits (runDecode · F) e := by
  cases hmark : markerError (headerBad F) (footerBad F) with
  | some c => exact ⟨.err c, Event.fromFrame_markerError hmark, runDecode_of_markerError hmark⟩
  | none =>
    by_cases hlen : F.length < 16
    · exact ⟨.err .shortFrame, Event.fromFrame_err (by simp), runDecode_of_short hmark hlen⟩
    · obtain ⟨h, hh⟩ := parseHeader_inside (F := beforeFooter F) (by rw [beforeFooter_length]; omega)
      obtain ⟨e, he, hemits⟩ := decodePayload_emits F h
      exact ⟨e, he, fun σ => (runDecode_of_header hmark (by omega) hh σ).trans (hemits σ)⟩

variable {F}

/-- A result of DECODE is its event and that event's write. -/
theorem emits_of_runDecode {σ σ₁ : Sensors} {e : Event} (hr : runDecode σ F = some (σ₁, e)) :
    e.FromFrame F ∧ Emits (runDecode · F) e ∧ σ₁ = e.applyTo σ := by
  obtain ⟨e', he, hemits⟩ := runDecode_emits F
  cases (hemits σ).symm.trans hr
  exact ⟨he, hemits, rfl⟩

end Machine
end Sys2Proof
end

section
/-! The overflow row as a step (40_synchronizer.md section 3). -/

namespace Sys2Proof.Machine

theorem classify_eq_syncOverflow {c : Config} {buf : List Byte} {b : Byte} {n : Nat}
    (hftr : ¬ ∃ before, buf ++ [b] = before ++ Config.ftr) (hhdr : ¬ ∃ before, buf ++ [b] = before ++ Config.hdr)
    (hmax : c.bufMax = .finite n) (hfull : n ≤ buf.length + 1) : classify c buf b = .syncOverflow b := by
  rw [← endsWithFooter_iff, Bool.not_eq_true] at hftr
  rw [← endsWithHeader_iff, Bool.not_eq_true] at hhdr
  simpa [hftr, hhdr, full, hmax, hfull, hfull.not_gt] using classify_cases c buf b

/-- Settles O28: with neither marker complete and BUF_MAX reached the row is SYNC.OVERFLOW. -/
theorem overflowEmptiesTheBuffer : Obligations.OverflowEmptiesTheBuffer := by
  intro s b rest n hin hftr hhdr hmax hfull
  rw [step_byte hin, classify_eq_syncOverflow hftr hhdr hmax hfull]
  exact ⟨rfl, rfl⟩

end Sys2Proof.Machine
end

section
/-! SUPPORT. Everything a step on a byte can do, said once: the composed step of R95 and the machine's step both do one of
the four things of R88, and every claim about steps and streams is a case analysis over them. -/

namespace Sys2Proof.Machine

/-- The effect of a byte on a state: the state after it (what is presented and the last output left as they are) and the
event it gives. -/
inductive ByteStep (s : State) (b : Byte) : State → Option Event → Prop
  | footer {e : Event} (hend : ∃ before, s.buf ++ [b] = before ++ Config.ftr) (hfrom : e.FromFrame (s.buf ++ [b]))
      (hemits : Emits (runDecode · (s.buf ++ [b])) e) :
      ByteStep s b { s with buf := [], sensors := e.applyTo s.sensors } (some e)
  | header (hend : ∃ before, s.buf ++ [b] = before ++ Config.hdr) : ByteStep s b { s with buf := Config.hdr } none
  | overflow {n : Nat} (hftr : ¬ ∃ before, s.buf ++ [b] = before ++ Config.ftr)
      (hhdr : ¬ ∃ before, s.buf ++ [b] = before ++ Config.hdr) (hmax : s.cfg.bufMax = .finite n)
      (hfull : n ≤ s.buf.length + 1) : ByteStep s b { s with buf := [] } (some (.err .bufferOverflow))
  | accum (hftr : ¬ ∃ before, s.buf ++ [b] = before ++ Config.ftr)
      (hhdr : ¬ ∃ before, s.buf ++ [b] = before ++ Config.hdr)
      (hroom : ∀ n, s.cfg.bufMax = .finite n → s.buf.length + 1 < n) : ByteStep s b { s with buf := s.buf ++ [b] } none

/-- Every byte has an effect at every state (R12). -/
theorem exists_byteStep (s : State) (b : Byte) : ∃ t e, ByteStep s b t e := by
  by_cases hftr : ∃ before, s.buf ++ [b] = before ++ Config.ftr
  · obtain ⟨e, hfrom, hemits⟩ := runDecode_emits (s.buf ++ [b])
    exact ⟨_, _, .footer hftr hfrom hemits⟩
  by_cases hhdr : ∃ before, s.buf ++ [b] = before ++ Config.hdr
  · exact ⟨_, _, .header hhdr⟩
  by_cases hfull : ∃ n, s.cfg.bufMax = .finite n ∧ n ≤ s.buf.length + 1
  · obtain ⟨n, hmax, hfull⟩ := hfull
    exact ⟨_, _, .overflow hftr hhdr hmax hfull⟩
  · exact ⟨_, _, .accum hftr hhdr fun n hmax => by
      by_contra hlt
      exact hfull ⟨n, hmax, by omega⟩⟩

/-- The effect is what FEED, then DECODE of the frame it emits, computes (R95). -/
theorem ByteStep.xspStep_eq {s t : State} {b : Byte} {e : Option Event} (h : ByteStep s b t e) :
    xspStep s b = some (t, e) := by
  cases h with
  | footer hend hfrom hemits =>
    rw [← endsWithFooter_iff] at hend
    have hfeed : feed s.cfg.bufMax s.buf b = ([], .frame (s.buf ++ [b])) := by
      simpa [hend] using feed_cases s.cfg.bufMax s.buf b
    simp [xspStep, hfeed, hemits s.sensors]
  | header hend =>
    obtain ⟨before, hend⟩ := hend
    have hftr : endsWithFooter (s.buf ++ [b]) = false := hend ▸ endsWithFooter_append_hdr before
    have hhdr : endsWithHeader (s.buf ++ [b]) = true := endsWithHeader_iff.mpr ⟨before, hend⟩
    have hfeed : feed s.cfg.bufMax s.buf b = (Config.hdr, .nothing) := by
      simpa [hftr, hhdr] using feed_cases s.cfg.bufMax s.buf b
    simp [xspStep, hfeed]
  | overflow hftr hhdr hmax hfull =>
    rw [← endsWithFooter_iff, Bool.not_eq_true] at hftr
    rw [← endsWithHeader_iff, Bool.not_eq_true] at hhdr
    have hfeed : feed s.cfg.bufMax s.buf b = ([], .overflow) := by
      simpa [hftr, hhdr, full, hmax, hfull, hfull.not_gt] using feed_cases s.cfg.bufMax s.buf b
    simp [xspStep, hfeed]
  | accum hftr hhdr hroom =>
    rw [← endsWithFooter_iff, Bool.not_eq_true] at hftr
    rw [← endsWithHeader_iff, Bool.not_eq_true] at hhdr
    have hfeed : feed s.cfg.bufMax s.buf b = (s.buf ++ [b], .nothing) := by
      simpa [hftr, hhdr, full_eq_false_iff.mpr hroom] using feed_cases s.cfg.bufMax s.buf b
    simp [xspStep, hfeed]

variable {s t : State} {b : Byte} {e : Option Event}

/-- A step's output for the event the byte gave, if any (log 3). -/
def outputOf : Option Event → Output
  | none => .silent
  | some e => .event e

/-- The machine's step on a presented byte has the byte's effect, whatever was presented and put out before: each row is
one of the statements about the rows as steps. -/
theorem ByteStep.step_eq (h : ByteStep s b t e) (rest : List HostInput) (o : Output) :
    step { s with input := .byte b :: rest, out := o } = .next { t with input := rest, out := outputOf e } := by
  cases h with
  | footer hend hfrom hemits =>
    obtain ⟨before, hend⟩ := hend
    obtain ⟨r, hr, hstep⟩ :=
      footerClosesTheFrame { s with input := .byte b :: rest, out := o } b rest before rfl hend
    cases (hemits s.sensors).symm.trans hr
    exact hstep
  | header hend =>
    obtain ⟨before, hend⟩ := hend
    exact headerResynchronises { s with input := .byte b :: rest, out := o } b rest before rfl hend
  | overflow hftr hhdr hmax hfull =>
    exact (overflowEmptiesTheBuffer { s with input := .byte b :: rest, out := o } b rest _ rfl hftr hhdr hmax hfull).1
  | accum hftr hhdr hroom =>
    exact otherBytesAccumulate { s with input := .byte b :: rest, out := o } b rest rfl hftr hhdr hroom

theorem ByteStep.step_eq_of_input {rest : List HostInput} (h : ByteStep s b t e) (hin : s.input = .byte b :: rest) :
    step s = .next { t with input := rest, out := outputOf e } := by
  rw [← h.step_eq rest s.out, ← hin]

/-- Everything a step can do: nothing is presented, or the reset input, or a byte with its effect. -/
theorem step_cases (h : step s = .next t) :
    (s.input = [] ∧ t = s.idle) ∨
    (∃ rest, s.input = .reset :: rest ∧
      t = { s with buf := [], sensors := resetSensors, input := rest, out := .silent }) ∨
    ∃ b rest t' e, s.input = .byte b :: rest ∧ ByteStep s b t' e ∧ t = { t' with input := rest, out := outputOf e } := by
  match hin : s.input with
  | [] =>
    refine .inl ⟨rfl, ?_⟩
    simpa [step, fetch, hin] using h.symm
  | .reset :: rest =>
    refine .inr (.inl ⟨rest, rfl, ?_⟩)
    simpa [step, fetch, hin, exec, execReset] using h.symm
  | .byte b :: rest =>
    obtain ⟨t', e, hb⟩ := exists_byteStep s b
    refine .inr (.inr ⟨b, rest, t', e, rfl, hb, ?_⟩)
    simpa [hb.step_eq_of_input hin] using h.symm

end Sys2Proof.Machine
end

section
/-! SUPPORT. Where a marker ends in a byte sequence, in terms of the bytes up to there; which markers a byte more adds. -/

namespace Sys2Proof.Machine

variable {m bytes more : List Byte} {p : Nat}

/-- A marker ends at index `p` when the bytes up to and with `p` end with it. -/
theorem markerEndsAt_iff (hm : m.length = 4) :
    markerEndsAt m bytes p ↔ p < bytes.length ∧ ∃ before, bytes.take (p + 1) = before ++ m := by
  constructor
  · rintro ⟨h3, hp, hmark⟩
    refine ⟨hp, bytes.take (p - 3), ?_⟩
    rw [show p + 1 = (p - 3) + 4 by omega, List.take_add, hmark]
  · rintro ⟨hp, before, htake⟩
    have hlen : p + 1 = before.length + 4 := by
      have := congrArg List.length htake
      simp only [List.length_take, List.length_append, hm] at this
      omega
    refine ⟨by omega, hp, ?_⟩
    calc (bytes.drop (p - 3)).take 4
        = (bytes.take (p + 1)).drop (p - 3) := by rw [List.drop_take]; congr 1; omega
      _ = m := by rw [htake, show p - 3 = before.length by omega, List.drop_left]

/-- What comes later does not change which markers end before it. -/
theorem markerEndsAt_append (hm : m.length = 4) (hp : p < bytes.length) :
    markerEndsAt m (bytes ++ more) p ↔ markerEndsAt m bytes p := by
  have hp' : p < (bytes ++ more).length := by simp; omega
  simp only [markerEndsAt_iff hm, hp, hp', List.take_append_of_le_length (show p + 1 ≤ bytes.length from hp)]

theorem markerEndsAt_last (hm : m.length = 4) {b : Byte} :
    markerEndsAt m (bytes ++ [b]) bytes.length ↔ ∃ before, bytes ++ [b] = before ++ m := by
  have htake : (bytes ++ [b]).take (bytes.length + 1) = bytes ++ [b] := List.take_of_length_le (by simp)
  simp [markerEndsAt_iff hm, htake]

/-- A marker ends at the last byte of the bytes with one more, or ended before. -/
theorem markerEndsAt_append_byte (hm : m.length = 4) {b : Byte} (h : markerEndsAt m (bytes ++ [b]) p) :
    markerEndsAt m bytes p ∨ (p = bytes.length ∧ ∃ before, bytes ++ [b] = before ++ m) := by
  have hp := h.2.1
  obtain hlt | rfl : p < bytes.length ∨ p = bytes.length := by simp at hp; omega
  · exact .inl ((markerEndsAt_append hm hlt).mp h)
  · exact .inr ⟨rfl, (markerEndsAt_last hm).mp h⟩

theorem markersAtStartOnly_nil : MarkersAtStartOnly [] where
  no_footer _ h := absurd h.2.1 (Nat.not_lt_zero _)
  no_later_header _ _ h := absurd h.2.1 (Nat.not_lt_zero _)

theorem markersAtStartOnly_hdr : MarkersAtStartOnly Config.hdr where
  no_footer p h := by
    obtain rfl : p = 3 := Nat.le_antisymm (Nat.le_of_lt_succ h.2.1) h.1
    exact absurd h.2.2 (by decide)
  no_later_header _ hp h := absurd h.2.1 (Nat.not_lt.mpr hp)

/-- A byte that completes no marker leaves them where they were (R96, I4). -/
theorem MarkersAtStartOnly.append_byte {b : Byte} (h : MarkersAtStartOnly bytes)
    (hftr : ¬ ∃ before, bytes ++ [b] = before ++ Config.ftr)
    (hhdr : ¬ ∃ before, bytes ++ [b] = before ++ Config.hdr) : MarkersAtStartOnly (bytes ++ [b]) where
  no_footer p hp := by
    obtain hp | ⟨_, hend⟩ := markerEndsAt_append_byte rfl hp
    · exact h.no_footer p hp
    · exact hftr hend
  no_later_header p h4 hp := by
    obtain hp | ⟨_, hend⟩ := markerEndsAt_append_byte rfl hp
    · exact h.no_later_header p h4 hp
    · exact hhdr hend

/-- Bytes that end with a marker have it end at their last index. -/
theorem markerEndsAt_of_eq_append (hm : m.length = 4) {before : List Byte} (h : bytes = before ++ m) :
    markerEndsAt m bytes (bytes.length - 1) := by
  have hlen : bytes.length = before.length + 4 := by rw [h, List.length_append, hm]
  exact (markerEndsAt_iff hm).mpr ⟨by omega, before, by rw [List.take_of_length_le (by omega), h]⟩

theorem belowCapacity_iff {m : BufMax} {len : Nat} : BelowCapacity m len ↔ ∀ n, m = .finite n → len < n := by
  cases m <;> simp [BelowCapacity]

/-- A legal BUF_MAX is above everything a laser frame is above (R9). -/
theorem belowCapacity_of_ok {c : Config} {len : Nat} (hok : c.ok = true) (hlen : len < 384) :
    BelowCapacity c.bufMax len := by
  rcases c with ⟨_ | n⟩
  · trivial
  · have hn : 384 ≤ n := of_decide_eq_true hok
    exact Nat.lt_of_lt_of_le hlen hn

end Sys2Proof.Machine
end

section
/-! SUPPORT. The validity of a point (44_decode_laser.md), and that no decode marks an entry out of range valid. -/

namespace Sys2Proof

theorem pointValid_iff {x y : I16} :
    pointValid x y = true ↔ (-512 < x.toInt ∧ x.toInt < 512) ∧ (-512 < y.toInt ∧ y.toInt < 512) := by
  simp only [pointValid, Config.validLimit, Bool.and_eq_true, decide_eq_true_eq]
  omega

namespace Machine

theorem validEntriesInRange_reset : ValidEntriesInRange resetSensors.laser := by
  intro k hk hvalid
  rw [resetSensors_laser k hk] at hvalid
  cases hvalid

/-- The table after an event of a frame: its points carry their validity, the other entries are as they were. -/
theorem validEntriesInRange_applyTo {σ : Sensors} {F : List Byte} {e : Event} (hfrom : e.FromFrame F)
    (hσ : ValidEntriesInRange σ.laser) : ValidEntriesInRange (e.applyTo σ).laser := by
  rcases e with ⟨h, _ | _ | ⟨start, pts⟩ | _⟩ | c
  case msg.laser =>
    obtain ⟨_, hpts⟩ := hfrom
    intro k hk hvalid
    simp only [Event.applyTo_msg, Record.applyTo_laser, getElem_sliceWritten] at hvalid ⊢
    split at hvalid
    next hslice =>
      rw [dif_pos hslice]
      exact pointValid_iff.mp (hpts (k - start) (by omega) ▸ hvalid)
    next hslice =>
      rw [dif_neg hslice]
      exact hσ k hk hvalid
  all_goals exact hσ

end Machine
end Sys2Proof
end

section
/-! The invariant (40_synchronizer.md section 5). -/

namespace Sys2Proof.Machine

/-- Settles O43: the buffer is empty, BUF_MAX is infinite and no entry is valid. -/
theorem resetMeetsTheInvariant : Obligations.ResetMeetsTheInvariant where
  cfg_ok := rfl
  below := trivial
  markers := markersAtStartOnly_nil
  valid_in_range := validEntriesInRange_reset

/-- Every effect of a byte keeps the invariant. -/
theorem Inv.byteStep {s t : State} {b : Byte} {e : Option Event} (h : Inv s) (hb : ByteStep s b t e) : Inv t := by
  obtain ⟨hok, hbelow, hmarkers, hvalid⟩ := h
  cases hb with
  | footer _ hfrom _ =>
    exact ⟨hok, belowCapacity_of_ok hok (by simp), markersAtStartOnly_nil, validEntriesInRange_applyTo hfrom hvalid⟩
  | header _ => exact ⟨hok, belowCapacity_of_ok hok (by simp), markersAtStartOnly_hdr, hvalid⟩
  | overflow _ _ _ _ => exact ⟨hok, belowCapacity_of_ok hok (by simp), markersAtStartOnly_nil, hvalid⟩
  | accum hftr hhdr hroom =>
    exact ⟨hok, belowCapacity_iff.mpr (by simpa using hroom), hmarkers.append_byte hftr hhdr, hvalid⟩

/-- Settles O44: idle and reset steps by the fields they leave or clear, a byte by its four effects. -/
theorem stepKeepsTheInvariant : Obligations.StepKeepsTheInvariant := by
  intro s t h hstep
  obtain ⟨_, rfl⟩ | ⟨_, _, rfl⟩ | ⟨_, _, t', _, _, hb, rfl⟩ := step_cases hstep
  · exact ⟨h.cfg_ok, h.below, h.markers, h.valid_in_range⟩
  · exact ⟨h.cfg_ok, belowCapacity_of_ok h.cfg_ok (by simp), markersAtStartOnly_nil, validEntriesInRange_reset⟩
  · obtain ⟨hok, hbelow, hmarkers, hvalid⟩ := h.byteStep hb
    exact ⟨hok, hbelow, hmarkers, hvalid⟩

/-- Settles O45: a marker at the buffer's end would be one the invariant excludes. -/
theorem bufferTailIsNoMarker : Obligations.BufferTailIsNoMarker := by
  intro s h
  refine ⟨?_, fun before hhdr => ?_, belowCapacity_iff.mp h.below⟩
  · rintro ⟨before, hftr⟩
    exact h.markers.no_footer _ (markerEndsAt_of_eq_append (m := Config.ftr) rfl hftr)
  · have hend := markerEndsAt_of_eq_append (m := Config.hdr) rfl hhdr
    have hstart := mt (h.markers.no_later_header _) (not_not.mpr hend)
    have h3 := hend.1
    have hlt := hend.2.1
    omega

/-- Settles O46: the buffer holds no footer and no later header, so the only marker a footer row adds is the footer at the
last byte. -/
theorem candidateFramesHaveOneFooter : Obligations.CandidateFramesHaveOneFooter := by
  intro s b rest h hin hrow
  have hftr : endsWithFooter (s.buf ++ [b]) = true := by simpa [hrow] using classify_cases s.cfg s.buf b
  obtain ⟨before, hend⟩ := endsWithFooter_iff.mp hftr
  refine ⟨?_, ?_, ?_, fun p hp => ?_, fun p hp => ?_⟩
  · rw [hend]; simp
  · intro n hn
    have := belowCapacity_iff.mp h.below n hn
    simp; omega
  · simp [footerBad, hftr]
  · obtain hp | ⟨rfl, _⟩ := markerEndsAt_append_byte rfl hp
    · exact absurd hp (h.markers.no_footer p)
    · simp
  · obtain hp | ⟨_, before', hhdr⟩ := markerEndsAt_append_byte rfl hp
    · have h3 := hp.1
      have hstart := mt (h.markers.no_later_header p) (not_not.mpr hp)
      omega
    · simp [hhdr, endsWithFooter_append_hdr] at hftr

end Sys2Proof.Machine
end

section
/-! The row a byte selects (30_encoding.md section 7). -/

namespace Sys2Proof.Machine

/-- Settles O3: `classify`'s four tests in the order of R88, each in terms of the bytes. -/
theorem windowSelectsTheRow : Obligations.WindowSelectsTheRow := by
  intro c buf b
  have hftr : endsWithFooter (buf ++ [b]) = true ↔ ∃ before, buf ++ [b] = before ++ [0x40, 0x30, 0x20, 0x10] :=
    endsWithFooter_iff
  have hhdr : endsWithHeader (buf ++ [b]) = true ↔ ∃ before, buf ++ [b] = before ++ [0x01, 0x02, 0x03, 0x04] :=
    endsWithHeader_iff
  have hfull : full c.bufMax (buf.length + 1) = true ↔ ∃ n, c.bufMax = .finite n ∧ n ≤ buf.length + 1 := by
    cases hm : c.bufMax <;> simp [full]
  have hexcl : endsWithHeader (buf ++ [b]) = true → endsWithFooter (buf ++ [b]) = false := by
    rw [endsWithHeader_iff]
    rintro ⟨before, h⟩
    exact h ▸ endsWithFooter_append_hdr before
  rw [← hftr, ← hhdr, ← hfull]
  obtain ⟨h₁, hrow⟩ | ⟨h₁, h₂, hrow⟩ | ⟨h₁, h₂, h₃, hrow⟩ | ⟨h₁, h₂, h₃, hrow⟩ := classify_cases c buf b
  · have h₂ : endsWithHeader (buf ++ [b]) = false := by
      by_contra h
      simp [hexcl (Bool.not_eq_false _ ▸ h)] at h₁
    simp [h₁, h₂, hrow]
  · simp [h₁, h₂, hrow]
  · simp [h₁, h₂, h₃, hrow]
  · simp [h₁, h₂, h₃, hrow]

end Sys2Proof.Machine
end

section
/-! The read primitives and the decoder's common rows (41_decoder_common.md sections 1 and 2). -/

namespace Sys2Proof.Machine

/-- Settles O9: both reads are the same 16 bits, read once unsigned and once signed. -/
theorem unsignedRead16 : Obligations.UnsignedRead16 := by
  intro F o s h
  obtain ⟨v, hv, hval⟩ := ru16_value h
  refine ⟨v, v, by simp [exec, execRu16, hv, State.answer], hval, hv, ?_⟩
  rw [BitVec.toInt_eq_toNat_cond]
  have := v.isLt
  split <;> omega

/-- Settles O10: the four bytes read as one field are the two halves' bytes. -/
theorem wideReadIsTwoNarrowReads : Obligations.WideReadIsTwoNarrowReads := by
  intro F o v hv
  have hlen : o + 4 ≤ F.length := by
    by_contra h
    simp [rd32s, unsigned32_outside (Nat.not_le.mp h)] at hv
  obtain ⟨lo, hlo, vlo⟩ := ru16_value (F := F) (o := o) (by omega)
  obtain ⟨hi, hhi, vhi⟩ := ru16_value (F := F) (o := o + 2) (by omega)
  refine ⟨lo, hi, hlo, hhi, ?_⟩
  rw [rd32s, unsigned32_inside hlen, Option.map_some, Option.some.injEq] at hv
  rw [← hv, vlo, vhi, BitVec.toNat_ofNat, Nat.mod_eq_of_lt (by omega)]
  ring

/-- Settles O11: a read outside its bytes has no value, and HEADER's last read ends at byte 11 before the footer. -/
theorem readsOutsideTheFrameStop : Obligations.ReadsOutsideTheFrameStop := by
  intro F o s
  refine ⟨fun h => ?_, fun h => ?_, fun h => ?_⟩
  · have h16 := unsigned16_outside h
    simp [exec, execRd16s, execRu16, rd16s, ru16, h16, finishRead]
  · simp [exec, execRd32s, rd32s, unsigned32_outside h, finishRead]
  · have hts : rd32s (beforeFooter F) 8 = none := by
      rw [rd32s, unsigned32_outside (by rw [beforeFooter_length]; omega)]
      rfl
    have hheader : parseHeader (beforeFooter F) = none := by
      cases h4 : rd16s (beforeFooter F) 4 <;> cases h6 : ru16 (beforeFooter F) 6 <;>
        simp [parseHeader, h4, h6, hts]
    simp [exec, execDecHeader, hheader, finishRead]

/-- Settles O12: VALIDATE's flags are the two marker tests. -/
theorem validateTestsBothMarkers : Obligations.ValidateTestsBothMarkers :=
  fun F _ => ⟨headerBad F, footerBad F, rfl, headerBad_eq_false_iff, footerBad_eq_false_iff⟩

/-- Settles O13: the code by the two flags. -/
theorem badMarkersAreReportedTogether : Obligations.BadMarkersAreReportedTogether := by
  intro F s
  have hexec : ∀ e, markerError (headerBad F) (footerBad F) = some e →
      exec (.decBadmark F) s = .next { s with out := .event (.err e) } := fun e he => by
    simp [exec, execDecBadmark, he, State.raiseErr, State.withDecoded]
  cases hh : headerBad F <;> cases hf : footerBad F <;> rw [hh, hf] at hexec
  · simp [exec, execDecBadmark, hh, hf, markerError]
  · exact ⟨fun _ => ⟨_, hexec _ rfl, rfl⟩, by simp⟩
  · exact ⟨fun _ => ⟨_, hexec _ rfl, rfl⟩, by simp⟩
  · exact ⟨fun _ => ⟨_, hexec _ rfl, rfl⟩, by simp⟩

theorem markerError_betweenMarkers (body : List Byte) :
    markerError (headerBad (betweenMarkers body)) (footerBad (betweenMarkers body)) = none := by
  simp [markerError]

/-- Settles O14: the body's frame has good markers and fewer than 16 bytes. -/
theorem shortFrameIsAnError : Obligations.ShortFrameIsAnError := fun body s hlen =>
  ⟨rfl, rfl, runDecode_of_short (markerError_betweenMarkers body) (by simp; omega) s.sensors⟩

/-- Settles O56: neither row looks at the operand that makes it ill formed. -/
theorem illFormedOtherAndShortRun : Obligations.IllFormedOtherAndShortRun :=
  fun _ => ⟨fun _ _ _ _ _ => rfl, fun _ _ => rfl⟩

end Sys2Proof.Machine
end

section
/-! DECODE against the rows a frame selects, and its priorities (41_decoder_common.md section 2, 60_exceptions.md). -/

namespace Sys2Proof.Machine

/-- A payload row runs its decoder on the frame its operands stand for (R73). -/
theorem exec_frameInstr (h : MessageHeader) (payload : List Byte) (s : State) :
    exec (frameInstr h payload) s = finishDecode s (decodePayload (frameOf h payload) h s.sensors) := by
  obtain ⟨type, seq, ts⟩ := h
  obtain ⟨rfl, hd⟩ | ⟨rfl, hd⟩ | ⟨rfl, hd⟩ | ⟨_, _, _, hd⟩ := dispatch_cases type <;>
    simp only [frameInstr, decodePayload, hd] <;> rfl

theorem markerError_frameOf (h : MessageHeader) (payload : List Byte) :
    markerError (headerBad (frameOf h payload)) (footerBad (frameOf h payload)) = none := markerError_betweenMarkers _

theorem runDecode_frameOf (h : MessageHeader) (payload : List Byte) (σ : Sensors) :
    runDecode σ (frameOf h payload) = decodePayload (frameOf h payload) h σ :=
  runDecode_of_header (markerError_frameOf h payload) (by rw [frameOf_length]; omega) (parseHeader_frameOf h payload) σ

/-- Settles O33: by the three kinds of byte sequence, each with what its row and DECODE do. -/
theorem decodeIsTheSelectedRow : Obligations.DecodeIsTheSelectedRow := by
  intro s F
  obtain hbad | ⟨body, hlen, rfl⟩ | ⟨h, payload, rfl⟩ := frame_cases F
  · obtain ⟨e, he⟩ : ∃ e, markerError (headerBad F) (footerBad F) = some e := by
      cases hh : headerBad F <;> cases hf : footerBad F <;> simp [hh, hf, markerError] at hbad ⊢
    exact ⟨_, _, decodeFrame_of_bad hbad, runDecode_of_markerError he s.sensors, by
      simp [exec, execDecBadmark, he, State.raiseErr, State.withDecoded]⟩
  · exact ⟨_, _, decodeFrame_betweenMarkers_short hlen,
      runDecode_of_short (markerError_betweenMarkers body) (by simp; omega) s.sensors, rfl⟩
  · obtain ⟨r, hr⟩ := runDecode_some s.sensors (frameOf h payload)
    exact ⟨_, r, decodeFrame_frameOf h payload, hr, by
      rw [exec_frameInstr, ← runDecode_frameOf, hr]; rfl⟩

/-- Settles O34: the marker checks come before the length check, and no decode of a closed frame ends in the overflow. -/
theorem errorPriority : Obligations.ErrorPriority := by
  refine ⟨fun σ F => ⟨fun hh hf => ?_, fun hh hf => ?_, fun hh hf => ?_, fun hh hf hlen => ?_⟩, ?_⟩
  · exact runDecode_of_markerError (by rw [hh, hf]; rfl) σ
  · exact runDecode_of_markerError (by rw [hh, hf]; rfl) σ
  · exact runDecode_of_markerError (by rw [hh, hf]; rfl) σ
  · exact runDecode_of_short (by rw [hh, hf]; rfl) hlen σ
  · intro s b rest t before hin hend hstep hout
    obtain ⟨⟨σ₁, e⟩, hr, hnext⟩ := footerClosesTheFrame s b rest before hin hend
    cases hnext.symm.trans hstep
    cases hout
    exact (emits_of_runDecode hr).1.1 rfl

/-- Settles O39: the event is the frame's at both sensor states, and writing its record twice is writing it once. -/
theorem decodingTwiceChangesNothing : Obligations.DecodingTwiceChangesNothing := by
  intro σ σ₁ F e hr
  obtain ⟨_, hemits, rfl⟩ := emits_of_runDecode hr
  simpa using hemits (e.applyTo σ)

/-- Settles O41: a text record is what its frame makes sure of, and writes nothing. -/
theorem textRecordLength : Obligations.TextRecordLength := by
  intro σ σ₁ F h bytes hr
  obtain ⟨⟨hlast, hlen⟩, _, hσ⟩ := emits_of_runDecode hr
  exact ⟨hσ, hlast, hlen⟩

end Sys2Proof.Machine
end

section
/-! SUPPORT. The fields of a payload read back from the frame built with it, and the rows on what their decoders give. -/

namespace Sys2Proof

variable (h : MessageHeader)

/-- A 16-bit field of the payload is read back from the frame (R73, R105). -/
theorem rd16s_beforeFooter_frameOf (before after : List Byte) (v : I16) {o : Nat} (ho : o = 12 + before.length) :
    rd16s (beforeFooter (frameOf h (before ++ (le16 v ++ after)))) o = some v := by
  rw [beforeFooter_frameOf, ← List.append_assoc]
  exact rd16s_le16 _ after v (by simp; omega)

/-- The bytes of a laser point on the wire (30_encoding.md R67). -/
def pointBytes (p : I16 × I16) : List Byte := le16 p.1 ++ le16 p.2

theorem length_flatMap_pointBytes (points : List (I16 × I16)) :
    (points.flatMap pointBytes).length = 4 * points.length := by
  induction points with
  | nil => rfl
  | cons p ps ih =>
    rw [List.flatMap_cons, List.length_append, ih, List.length_cons]
    simp only [pointBytes, List.length_append, le16_length]
    omega

/-- A point's four bytes stand after those of the points before it. -/
theorem flatMap_pointBytes_eq (points : List (I16 × I16)) {i : Nat} (hi : i < points.length) :
    points.flatMap pointBytes =
      (points.take i).flatMap pointBytes ++ (pointBytes points[i] ++ (points.drop (i + 1)).flatMap pointBytes) := by
  rw [← List.flatMap_cons, ← List.flatMap_append, ← List.drop_eq_getElem_cons hi, List.take_append_drop]

namespace Machine

/-- Point `i` of a frame is the point it was built with, and its validity (R148, R149). -/
theorem readPoint_frameOf (before extra : List Byte) (points : List (I16 × I16)) (hbefore : before.length = 8) {i : Nat}
    (hi : i < points.length) :
    readPoint (beforeFooter (frameOf h (before ++ (points.flatMap pointBytes ++ extra)))) i =
      some ⟨points[i].1, points[i].2, pointValid points[i].1 points[i].2⟩ := by
  have hlen : (before ++ (points.take i).flatMap pointBytes).length = 8 + 4 * i := by
    rw [List.length_append, hbefore, length_flatMap_pointBytes, List.length_take_of_le hi.le]
  have hx := rd16s_beforeFooter_frameOf h (before ++ (points.take i).flatMap pointBytes)
    (le16 points[i].2 ++ ((points.drop (i + 1)).flatMap pointBytes ++ extra)) points[i].1 (o := 20 + 4 * i) (by omega)
  have hy := rd16s_beforeFooter_frameOf h (before ++ (points.take i).flatMap pointBytes ++ le16 points[i].1)
    ((points.drop (i + 1)).flatMap pointBytes ++ extra) points[i].2 (o := 20 + 4 * i + 2)
    (by rw [List.length_append, le16_length]; omega)
  rw [flatMap_pointBytes_eq points hi]
  simp only [pointBytes, List.append_assoc] at hx hy ⊢
  simp [readPoint, hx, hy]

variable {seq : U16} {ts : I32} {payload : List Byte} {s : State} {σ : Sensors} {e : Event}

theorem exec_decOdom_eq (hr : odom s.sensors (frameOf ⟨1, seq, ts⟩ payload) ⟨1, seq, ts⟩ = some (σ, e)) :
    exec (.decOdom seq ts payload) s = .next { s with sensors := σ, out := .event e } :=
  congrArg (finishDecode s) hr

theorem exec_decText_eq (hr : text s.sensors (frameOf ⟨17, seq, ts⟩ payload) ⟨17, seq, ts⟩ = some (σ, e)) :
    exec (.decText seq ts payload) s = .next { s with sensors := σ, out := .event e } :=
  congrArg (finishDecode s) hr

theorem exec_decLaser_eq (hr : laser s.sensors (frameOf ⟨5, seq, ts⟩ payload) ⟨5, seq, ts⟩ = some (σ, e)) :
    exec (.decLaser seq ts payload) s = .next { s with sensors := σ, out := .event e } :=
  congrArg (finishDecode s) hr

end Machine
end Sys2Proof
end

section
/-! The payload decoders (42_decode_odometry.md, 43_decode_text.md, 44_decode_laser.md). -/

namespace Sys2Proof.Machine

/-- Settles O18: the payload holds all four fields, each read back where it was written. -/
theorem odometryOverwritesBothReadings : Obligations.OdometryOverwritesBothReadings := by
  intro seq ts lc rc ls rs extra s
  apply exec_decOdom_eq
  have hlc := rd32s_beforeFooter_frameOf ⟨1, seq, ts⟩ [] (le32 rc ++ le16 ls ++ le16 rs ++ extra) lc (o := 0x0c) rfl
  have hrc := rd32s_beforeFooter_frameOf ⟨1, seq, ts⟩ (le32 lc) (le16 ls ++ le16 rs ++ extra) rc (o := 0x10) rfl
  have hls := rd16s_beforeFooter_frameOf ⟨1, seq, ts⟩ (le32 lc ++ le32 rc) (le16 rs ++ extra) ls (o := 0x14) rfl
  have hrs := rd16s_beforeFooter_frameOf ⟨1, seq, ts⟩ (le32 lc ++ le32 rc ++ le16 ls) extra rs (o := 0x16) rfl
  simp only [List.append_assoc, List.nil_append] at hlc hrc hls hrs ⊢
  obtain ⟨hshort, _⟩ | ⟨_, lc', rc', ls', rs', hlc', hrc', hls', hrs', ho⟩ :=
    odom_cases s.sensors (frameOf ⟨1, seq, ts⟩ (le32 lc ++ (le32 rc ++ (le16 ls ++ (le16 rs ++ extra))))) ⟨1, seq, ts⟩
  · simp at hshort
    omega
  · cases hlc.symm.trans hlc'
    cases hrc.symm.trans hrc'
    cases hls.symm.trans hls'
    cases hrs.symm.trans hrs'
    exact ho

/-- Settles O20: the payload holds the index and all 90 points, each read back where it was written. -/
theorem laserWritesNinetyEntries : Obligations.LaserWritesNinetyEntries := by
  intro seq ts pad start points extra s hpad hp hnonneg hlast
  have hpayload : pad ++ le32 start ++ points.flatMap (fun p => le16 p.1 ++ le16 p.2) ++ extra =
      pad ++ (le32 start ++ (points.flatMap pointBytes ++ extra)) := by
    simp only [List.append_assoc]; rfl
  rw [hpayload]
  have hstart := rd32s_beforeFooter_frameOf ⟨5, seq, ts⟩ pad (points.flatMap pointBytes ++ extra) start (o := 0x10)
    (by rw [hpad])
  obtain ⟨hshort, _⟩ | ⟨_, start', hstart', _, _⟩ | ⟨_, start', hstart', _, _, pts, table, hpts, htable, hl⟩ :=
    laser_cases s.sensors (frameOf ⟨5, seq, ts⟩ (pad ++ (le32 start ++ (points.flatMap pointBytes ++ extra))))
      ⟨5, seq, ts⟩
  · simp only [frameOf_length, List.length_append, le32_length, length_flatMap_pointBytes] at hshort
    omega
  · cases hstart.symm.trans hstart'
    omega
  · cases hstart.symm.trans hstart'
    refine ⟨pts, table, exec_decLaser_eq hl, fun i hi => ?_, htable⟩
    have hpoint := readPoint_frameOf ⟨5, seq, ts⟩ (pad ++ le32 start) extra points (by simp [hpad])
      (show i < points.length by omega)
    rw [List.append_assoc] at hpoint
    exact Option.some.inj ((hpts i hi).symm.trans hpoint)

section FailedChecks

variable (σ : Sensors) (h : MessageHeader)

theorem odom_frameOf_short {payload : List Byte} (hlen : payload.length < 12) :
    odom σ (frameOf h payload) h = some (σ, .err .shortFrame) := by
  have hF := frameOf_length h payload
  obtain ⟨_, ho⟩ | ⟨_, _⟩ := odom_cases σ (frameOf h payload) h
  · exact ho
  · omega

theorem text_frameOf_short {payload : List Byte} (hlen : payload.length < 4) :
    text σ (frameOf h payload) h = some (σ, .err .shortFrame) := by
  have hF := frameOf_length h payload
  obtain ⟨_, ht⟩ | ⟨_, _⟩ | ⟨_, _⟩ := text_cases σ (frameOf h payload) h
  · exact ht
  · omega
  · omega

/-- A length the frame does not hold (R137). -/
theorem text_frameOf_bad_length {length : I32} {rest : List Byte}
    (hbad : length.toInt < 0 ∨ (rest.length : Int) < length.toInt) :
    text σ (frameOf h (le32 length ++ rest)) h = some (σ, .err .textLength) := by
  have hF := frameOf_length h (le32 length ++ rest)
  rw [List.length_append, le32_length] at hF
  have hfield := rd32s_beforeFooter_frameOf h [] rest length (o := 0x0c) rfl
  rw [List.nil_append] at hfield
  obtain ⟨_, _⟩ | ⟨_, _, _, _, ht⟩ | ⟨_, n, hn, _, _, _⟩ := text_cases σ (frameOf h (le32 length ++ rest)) h
  · omega
  · exact ht
  · cases hfield.symm.trans hn
    omega

theorem laser_frameOf_short {payload : List Byte} (hlen : payload.length < 368) :
    laser σ (frameOf h payload) h = some (σ, .err .shortFrame) := by
  have hF := frameOf_length h payload
  obtain ⟨_, hl⟩ | ⟨_, _⟩ | ⟨_, _⟩ := laser_cases σ (frameOf h payload) h
  · exact hl
  · omega
  · omega

/-- A start index whose slice would not lie in the table (R147). -/
theorem laser_frameOf_bad_start {pad rest : List Byte} {start : I32} (hpad : pad.length = 4) (hrest : 360 ≤ rest.length)
    (hbad : start.toInt < 0 ∨ 270 < start.toInt) :
    laser σ (frameOf h (pad ++ le32 start ++ rest)) h = some (σ, .err .laserIndex) := by
  have hF := frameOf_length h (pad ++ le32 start ++ rest)
  simp only [List.length_append, le32_length] at hF
  have hfield := rd32s_beforeFooter_frameOf h pad rest start (o := 0x10) (by rw [hpad])
  rw [← List.append_assoc] at hfield
  obtain ⟨_, _⟩ | ⟨_, _, _, _, hl⟩ | ⟨_, n, hn, _, _, _⟩ := laser_cases σ (frameOf h (pad ++ le32 start ++ rest)) h
  · omega
  · exact hl
  · cases hfield.symm.trans hn
    omega

end FailedChecks

/-- Settles O21: each row ends in what its decoder gives for the failed check. -/
theorem failedChecksWriteNothing : Obligations.FailedChecksWriteNothing := fun _ _ s =>
  ⟨fun _ hlen => exec_decOdom_eq (odom_frameOf_short s.sensors _ hlen),
    fun _ hlen => exec_decText_eq (text_frameOf_short s.sensors _ hlen),
    fun _ _ hbad => exec_decText_eq (text_frameOf_bad_length s.sensors _ hbad),
    fun _ hlen => exec_decLaser_eq (laser_frameOf_short s.sensors _ hlen),
    fun _ _ _ hpad hrest hbad => exec_decLaser_eq (laser_frameOf_bad_start s.sensors _ hpad hrest hbad), rfl, rfl, rfl⟩

/-- Settles O22: below 512 in absolute value is strictly between, and says of the bits that those from 9 up are the sign. -/
theorem pointValidityAndItsBitTest : Obligations.PointValidityAndItsBitTest := by
  refine fun x y => ⟨pointValid_iff, ?_⟩
  simp only [BitVec.toInt_eq_toNat_cond, ← BitVec.toNat_inj, ne_eq, BitVec.extractLsb'_toNat,
    Nat.shiftRight_eq_div_pow, BitVec.ofNat_eq_ofNat, BitVec.toNat_ofNat]
  have := x.isLt
  split <;> omega

/-- Settles O23: a quotient by 1000, of a signed 16-bit number. -/
theorem speedIsRawOverThousand : Obligations.SpeedIsRawOverThousand := by
  intro r
  have hmin : (-32768 : Rat) ≤ (r.speedRaw.toInt : Rat) := by
    exact_mod_cast BitVec.le_toInt r.speedRaw
  have hmax : (r.speedRaw.toInt : Rat) ≤ 32767 := by
    exact_mod_cast Int.le_of_lt_add_one (BitVec.toInt_lt (x := r.speedRaw))
  have hspeed : speed r = (r.speedRaw.toInt : Rat) / 1000 := by simp [speed]
  rw [hspeed]
  refine ⟨by ring, ?_, ?_⟩ <;> gcongr

end Sys2Proof.Machine
end

section
/-! The step, the synchronizer's rows by themselves, and RESET (00_scope.md section 5, 40_synchronizer.md,
70_reset_and_hazards.md section 1). -/

namespace Sys2Proof.Machine

/-- Settles O1: by what is presented first. -/
theorem stepRunsSelectedOperation : Obligations.StepRunsSelectedOperation := fun s =>
  ⟨fun hin => by simp [step, fetch, hin, State.idle, State.answer], fun _ _ hin => step_byte hin,
    fun _ hin => by simp [step, fetch, hin]⟩

/-- Settles O24: the footer row is a decode, which has a result; the other rows are their effects. -/
theorem synchronizerRowsComplete : Obligations.SynchronizerRowsComplete := by
  intro s b
  obtain ⟨r, hr⟩ := runDecode_some s.sensors (s.buf ++ [0x10])
  exact ⟨⟨r, hr, congrArg (finishDecode { s with buf := [] }) hr⟩, rfl, rfl, rfl⟩

/-- Settles O29: RESET writes the reset values, and the reset input runs it. -/
theorem resetClearsEverything : Obligations.ResetClearsEverything := fun s =>
  ⟨resetSensors, rfl, rfl, rfl, resetSensors_laser, fun _ hin => by simp [step, fetch, hin, exec, execReset]⟩

/-- Settles O30: the fields of the reset state, which are those RESET writes. -/
theorem resetStateIsTheTableOfResetValues : Obligations.ResetStateIsTheTableOfResetValues :=
  ⟨rfl, rfl, rfl, resetSensors_laser, rfl, rfl, fun _ => rfl⟩

/-- Settles O31: idle and RESET answer, and every byte has an effect. -/
theorem stepNeverStops : Obligations.StepNeverStops := by
  intro s
  match hin : s.input with
  | [] => exact ⟨_, (stepRunsSelectedOperation s).1 hin⟩
  | .reset :: rest => exact ⟨_, (stepRunsSelectedOperation s).2.2 rest hin⟩
  | .byte b :: rest =>
    obtain ⟨t, e, hb⟩ := exists_byteStep s b
    exact ⟨_, hb.step_eq_of_input hin⟩

/-- Settles O32: the byte's effect is both what the composed step computes and what the machine's step does. -/
theorem stepIsFeedThenDecode : Obligations.StepIsFeedThenDecode := by
  intro s b rest hin
  obtain ⟨t, e, hb⟩ := exists_byteStep s b
  exact ⟨t, e, hb.xspStep_eq, by rw [hb.step_eq_of_input hin]; cases e <;> rfl⟩

/-- Settles O37: the four effects of a byte, the footer's and the overflow's being the two that empty the buffer. -/
theorem bufferChangesInThreeWays : Obligations.BufferChangesInThreeWays := by
  intro s t b rest hin hstep
  obtain ⟨t', e, hb⟩ := exists_byteStep s b
  cases (hb.step_eq_of_input hin).symm.trans hstep
  cases hb with
  | footer _ _ _ => exact ⟨rfl, rfl, .inr (.inr ⟨rfl, _, rfl⟩)⟩
  | header _ => exact ⟨rfl, rfl, .inr (.inl ⟨rfl, rfl, rfl⟩)⟩
  | overflow _ _ _ _ => exact ⟨rfl, rfl, .inr (.inr ⟨rfl, _, rfl⟩)⟩
  | accum _ _ _ => exact ⟨rfl, rfl, .inl ⟨rfl, rfl, rfl⟩⟩

/-- Settles O38: the only decode in a step is of bytes that end with the footer. -/
theorem stepNeverReportsTheFooter : Obligations.StepNeverReportsTheFooter := by
  intro s t hstep
  obtain ⟨_, rfl⟩ | ⟨_, _, rfl⟩ | ⟨b, _, t', _, _, hb, rfl⟩ := step_cases hstep
  · simp
  · simp
  · cases hb with
    | @footer e hend hfrom _ =>
      have hgood : footerBad (s.buf ++ [b]) = false := footerBad_eq_false_iff.mpr hend
      cases e with
      | msg _ _ => simp [outputOf]
      | err c => simpa [outputOf] using hfrom.2 hgood
    | header _ => simp [outputOf]
    | overflow _ _ _ _ => simp [outputOf]
    | accum _ _ _ => simp [outputOf]

/-- A byte has the same effect at every sensor state, but for the sensor state itself. -/
theorem ByteStep.with_sensors {s t : State} {b : Byte} {e : Option Event} (h : ByteStep s b t e) (σ : Sensors) :
    ∃ σ', ByteStep { s with sensors := σ } b { t with sensors := σ' } e := by
  cases h with
  | footer hend hfrom hemits => exact ⟨_, .footer (s := { s with sensors := σ }) hend hfrom hemits⟩
  | header hend => exact ⟨_, .header (s := { s with sensors := σ }) hend⟩
  | overflow hftr hhdr hmax hfull => exact ⟨_, .overflow (s := { s with sensors := σ }) hftr hhdr hmax hfull⟩
  | accum hftr hhdr hroom => exact ⟨_, .accum (s := { s with sensors := σ }) hftr hhdr hroom⟩

/-- Settles O40: the second state is the first with another sensor state and output, and a byte's effect carries over. -/
theorem sensorStateDoesNotInfluenceSteps : Obligations.SensorStateDoesNotInfluenceSteps := by
  rintro ⟨cfg, buf, σ₁, input, o₁⟩ ⟨_, _, σ₂, _, o₂⟩ t₁ t₂ ⟨⟩ ⟨⟩ ⟨⟩ h₁ h₂
  match input with
  | [] =>
    cases h₁
    cases h₂
    exact ⟨rfl, rfl, rfl, rfl⟩
  | .reset :: rest =>
    cases h₁
    cases h₂
    exact ⟨rfl, rfl, rfl, rfl⟩
  | .byte b :: rest =>
    obtain ⟨t, e, hb⟩ := exists_byteStep ⟨cfg, buf, σ₁, [], o₁⟩ b
    obtain ⟨σ', hb'⟩ := hb.with_sensors σ₂
    cases (hb.step_eq rest o₁).symm.trans h₁
    cases (hb'.step_eq rest o₂).symm.trans h₂
    exact ⟨rfl, rfl, rfl, rfl⟩

end Sys2Proof.Machine
end

section
/-! SUPPORT. What the output of an operation says of the sensor state, and which fields each operation leaves. -/

namespace Sys2Proof.Machine

variable {i : Instr} {s t : State} {F : List Byte}

/-- What an operation that ended in `t` put out: the event of a frame, whose record it wrote; an error, with nothing
written; or no event. -/
def OutputExplains (s t : State) : Prop :=
  (∃ F e, e.FromFrame F ∧ t.sensors = e.applyTo s.sensors ∧ t.out = .event e) ∨
  (∃ c, t.sensors = s.sensors ∧ t.out = .event (.err c)) ∨ ∀ e, t.out ≠ .event e

theorem finishDecode_explains {decode : Sensors → Option Decoded} (hemits : ∃ e, e.FromFrame F ∧ Emits decode e)
    {s' : State} (h : finishDecode s' (decode s.sensors) = .next t) : OutputExplains s t := by
  obtain ⟨e, hfrom, hemits⟩ := hemits
  rw [hemits s.sensors] at h
  cases h
  exact .inl ⟨F, e, hfrom, rfl, rfl⟩

theorem finishRead_explains {α : Type} {read : Option α} {out : α → Output} (hout : ∀ a e, out a ≠ .event e)
    (h : finishRead s (read.map out) = .next t) : OutputExplains s t := by
  obtain ⟨o, ho, rfl⟩ := finishRead_next h
  obtain ⟨a, _, rfl⟩ := Option.map_eq_some_iff.mp ho
  exact .inr (.inr (hout a))

theorem execDecBadmark_next (h : execDecBadmark F s = .next t) : ∃ c, t = s.raiseErr c := by
  unfold execDecBadmark at h
  split at h
  · cases h
  · cases h
    exact ⟨_, rfl⟩

/-- Every operation's output explains what it wrote: a decode by its event (R109), a lone error by nothing written (R166),
and the rest end in no event. -/
theorem exec_explains (h : exec i s = .next t) : OutputExplains s t := by
  cases i with
  | syncFooter => exact finishDecode_explains (runDecode_emits _) h
  | syncHeader => cases h; exact .inr (.inr fun _ => by simp)
  | syncOverflow b => cases h; exact .inr (.inl ⟨_, rfl, rfl⟩)
  | syncAccum b => cases h; exact .inr (.inr fun _ => by simp)
  | decOdom seq ts payload => exact finishDecode_explains (odom_emits _ _) h
  | decLaser seq ts payload => exact finishDecode_explains (laser_emits _ _) h
  | decText seq ts payload => exact finishDecode_explains (text_emits _ _) h
  | decOther type seq ts payload =>
    exact finishDecode_explains (F := []) (decode := fun σ => some (other σ ⟨type, seq, ts⟩))
      ⟨.msg ⟨type, seq, ts⟩ .noRecord, trivial, fun _ => rfl⟩ h
  | decBadmark F =>
    obtain ⟨c, rfl⟩ := execDecBadmark_next h
    exact .inr (.inl ⟨c, rfl, rfl⟩)
  | decValidate F => cases h; exact .inr (.inr fun _ => by simp)
  | decShort body => cases h; exact .inr (.inl ⟨_, rfl, rfl⟩)
  | decHeader F => exact finishRead_explains (by simp) h
  | decDispatch type => cases h; exact .inr (.inr fun _ => by simp)
  | reset => cases h; exact .inr (.inr fun _ => by simp)
  | rd16s F o => exact finishRead_explains (by simp) h
  | rd32s F o => exact finishRead_explains (by simp) h
  | ru16 F o => exact finishRead_explains (by simp) h

variable {σ : Sensors} {h : MessageHeader} {r : Decoded}

theorem odom_keeps_laser (hr : odom σ F h = some r) : r.1.laser = σ.laser := by
  obtain ⟨_, ho⟩ | ⟨_, _, _, _, _, _, _, _, _, ho⟩ := odom_cases σ F h
  · cases ho.symm.trans hr; rfl
  · cases ho.symm.trans hr; rfl

theorem text_keeps_sensors (hr : text σ F h = some r) : r.1 = σ := by
  obtain ⟨_, ht⟩ | ⟨_, _, _, _, ht⟩ | ⟨_, _, _, _, _, ht⟩ := text_cases σ F h
  · cases ht.symm.trans hr; rfl
  · cases ht.symm.trans hr; rfl
  · cases ht.symm.trans hr; rfl

theorem laser_keeps_readings (hr : laser σ F h = some r) : r.1.left = σ.left ∧ r.1.right = σ.right := by
  obtain ⟨_, hl⟩ | ⟨_, _, _, _, hl⟩ | ⟨_, _, _, _, _, _, _, _, _, hl⟩ := laser_cases σ F h
  · cases hl.symm.trans hr; exact ⟨rfl, rfl⟩
  · cases hl.symm.trans hr; exact ⟨rfl, rfl⟩
  · cases hl.symm.trans hr; exact ⟨rfl, rfl⟩

end Sys2Proof.Machine
end

section
/-! Errors and who writes what (60_exceptions.md section 2, 10_state.md section 8). -/

namespace Sys2Proof.Machine

/-- Settles O35: an error event writes no record; of a byte's effects only those that empty the buffer give an event. -/
theorem errorsLeaveTheSensorState : Obligations.ErrorsLeaveTheSensorState := by
  constructor
  · intro i s t c h hout
    obtain ⟨_, e, _, hσ, ho⟩ | ⟨_, hσ, _⟩ | hnone := exec_explains h
    · cases ho.symm.trans hout
      exact hσ
    · exact hσ
    · exact absurd hout (hnone _)
  · intro s t c hstep hout
    obtain ⟨_, rfl⟩ | ⟨_, _, rfl⟩ | ⟨b, _, t', _, _, hb, rfl⟩ := step_cases hstep
    · cases hout
    · cases hout
    · cases hb with
      | footer _ _ _ => cases hout; exact ⟨rfl, rfl⟩
      | header _ => cases hout
      | overflow _ _ _ _ => exact ⟨rfl, rfl⟩
      | accum _ _ _ => cases hout

/-- Settles O36: by operation; a decode writes the sensor state alone, and each payload decoder only its own part. -/
theorem whoWritesWhat : Obligations.WhoWritesWhat := by
  intro i s t h
  cases i with
  | syncFooter => obtain ⟨r, _, rfl⟩ := finishDecode_next h; simp
  | syncHeader => cases h; simp
  | syncOverflow b => cases h; simp
  | syncAccum b => cases h; simp
  | decOdom seq ts payload =>
    obtain ⟨r, hr, rfl⟩ := finishDecode_next h
    simp [odom_keeps_laser hr]
  | decLaser seq ts payload =>
    obtain ⟨r, hr, rfl⟩ := finishDecode_next h
    simp [laser_keeps_readings hr]
  | decText seq ts payload =>
    obtain ⟨r, hr, rfl⟩ := finishDecode_next h
    simp [text_keeps_sensors hr]
  | decOther type seq ts payload => cases h; simp
  | decBadmark F => obtain ⟨c, rfl⟩ := execDecBadmark_next h; simp
  | decValidate F => cases h; simp
  | decShort body => cases h; simp
  | decHeader F => obtain ⟨o, _, rfl⟩ := finishRead_next h; simp
  | decDispatch type => cases h; simp
  | reset => cases h; simp
  | rd16s F o => obtain ⟨o, _, rfl⟩ := finishRead_next h; simp
  | rd32s F o => obtain ⟨o, _, rfl⟩ := finishRead_next h; simp
  | ru16 F o => obtain ⟨o, _, rfl⟩ := finishRead_next h; simp

end Sys2Proof.Machine
end

section
/-! SUPPORT. The ports on a given output, and the table port on a slice (70_reset_and_hazards.md section 5). -/

namespace Sys2Proof.Machine

variable {s : State}

theorem event_of_out {e : Event} (h : s.out = .event e) : s.event = some e := by simp [State.event, h]

theorem event_of_no_event (h : ∀ e, s.out ≠ .event e) : s.event = none := by
  unfold State.event
  split
  next e he => exact absurd he (h e)
  next => rfl

theorem evRecord_of_out {h : MessageHeader} {r : Record} (ho : s.out = .event (.msg h r)) : s.evRecord = some r := by
  simp [State.evRecord, event_of_out ho]

theorem ErrCause.code_pos (c : ErrCause) : 1 ≤ c.code.toNat := by cases c <;> decide

@[simp] theorem textStream_eq_nil_iff {bytes : List Byte} : textStream bytes = [] ↔ bytes = [] := by
  rw [← List.length_eq_zero_iff, textStream_length, List.length_eq_zero_iff]

theorem textStream_getLast? {bytes : List Byte} {b : Byte} (h : bytes.getLast? = some b) :
    (textStream bytes).getLast? = some (b, true) := by
  induction bytes with
  | nil => cases h
  | cons c cs ih =>
    cases cs with
    | nil => simpa [textStream] using h
    | cons d ds =>
      rw [List.getLast?_cons_cons] at h
      simp [textStream, List.getLast?_cons, ih h]

/-- The port shows a slice that stands in the table. -/
theorem tblRead_of_sliceWritten {table : Vector LaserPoint 360} {start : Nat} {pts : Vector LaserPoint 90}
    (hs : s.sensors.laser = sliceWritten table start pts) (hstart : start ≤ 270) {addr : BitVec 9}
    (h : start ≤ addr.toNat ∧ addr.toNat < start + 90) : s.tblRead addr = pts[addr.toNat - start]'(by omega) := by
  have haddr : addr.toNat < 360 := by omega
  simp [State.tblRead, haddr, hs, h]

/-- A message after an operation is a frame's, and its record is what the operation wrote. -/
theorem exec_message {i : Instr} {t : State} {h : MessageHeader} {r : Record} (hexec : exec i s = .next t)
    (hout : t.out = .event (.msg h r)) : (∃ F, r.FromFrame F) ∧ t.sensors = r.applyTo s.sensors := by
  obtain ⟨F, e, hfrom, hσ, ho⟩ | ⟨c, _, ho⟩ | hnone := exec_explains hexec
  · cases ho.symm.trans hout
    exact ⟨⟨F, hfrom⟩, hσ⟩
  · cases ho.symm.trans hout
  · exact absurd hout (hnone _)

end Sys2Proof.Machine
end

section
/-! The ports (70_reset_and_hazards.md section 5). -/

namespace Sys2Proof.Machine

/-- Settles O42: the port's two ranges; a laser message's record is the slice the table then holds. -/
theorem tablePortReadsTheTable : Obligations.TablePortReadsTheTable := by
  refine fun s addr => ⟨fun h => ?_, fun h => ?_, fun seq ts payload t h start pts hexec hout hr => ?_⟩
  · simp [State.tblRead, h]
  · simp [State.tblRead, h.not_gt]
  · obtain ⟨⟨_, hstart, _⟩, hσ⟩ := exec_message hexec hout
    exact tblRead_of_sliceWritten (by rw [hσ, Record.applyTo_laser]) hstart hr

/-- Settles O54: by what the output is; a text record is never empty, since it ends in its zero. -/
theorem eventPortsShowTheEvent : Obligations.EventPortsShowTheEvent := by
  intro i s t hexec
  refine ⟨fun c ho => ?_, fun h r ho => ?_, fun hnone => ?_⟩
  · have hev := event_of_out ho
    have hcode : c.code.toNat ≤ 7 := Nat.le_of_lt_succ c.code.isLt
    simp [State.evValid, State.evIsErr, State.evCode, State.evHeader, State.evKind, State.evStart, State.txt,
      State.evRecord, hev, ErrCause.code_pos, hcode]
  · have hev := event_of_out ho
    refine ⟨by simp [State.evValid, hev], by simp [State.evIsErr, hev], by simp [State.evCode, hev],
      by simp [State.evHeader, hev], ?_⟩
    have hrec := evRecord_of_out ho
    obtain ⟨⟨_, hfrom⟩, _⟩ := exec_message hexec ho
    cases r with
    | text bytes =>
      have hne : bytes ≠ [] := by
        rintro rfl
        cases hfrom.1
      simp [State.evKind, State.evStart, State.txt, hrec, hne]
    | odom left right => simp [State.evKind, State.evStart, State.txt, hrec]
    | laser start pts => simp [State.evKind, State.evStart, State.txt, hrec]
    | noRecord => simp [State.evKind, State.evStart, State.txt, hrec]
  · have hev := event_of_no_event hnone
    simp [State.evValid, State.evIsErr, State.evCode, State.evHeader, State.evKind, State.evStart, State.txt,
      State.evRecord, hev]

/-- Settles O55: the record of a message is what its operation wrote, and what its frame makes sure of. -/
theorem recordsAreReadFromThePorts : Obligations.RecordsAreReadFromThePorts := by
  intro i s t h hexec
  refine ⟨fun bytes ho => ?_, fun l r ho => ?_, fun start pts ho => ?_⟩
  · obtain ⟨⟨_, hlast, _⟩, _⟩ := exec_message hexec ho
    have htxt : t.txt = textStream bytes := by simp [State.txt, evRecord_of_out ho]
    rw [htxt]
    exact ⟨textStream_map_fst bytes, textStream_getLast? hlast, textStream_last_iff bytes⟩
  · obtain ⟨_, hσ⟩ := exec_message hexec ho
    simp [State.odoLeftCount, State.odoRightCount, State.odoLeftSpeedRaw, State.odoRightSpeedRaw, hσ, Record.applyTo]
  · obtain ⟨⟨_, hstart, _⟩, hσ⟩ := exec_message hexec ho
    refine ⟨BitVec.ofNat 9 start, by simp [State.evStart, evRecord_of_out ho], by simp; omega, hstart, fun k hk => ?_⟩
    have haddr : (BitVec.ofNat 9 start + BitVec.ofNat 9 k).toNat = start + k := by
      simp only [BitVec.toNat_add, BitVec.toNat_ofNat]
      omega
    rw [tblRead_of_sliceWritten (by rw [hσ, Record.applyTo_laser]) hstart (by omega)]
    simp [haddr]

end Sys2Proof.Machine
end

section
/-! SUPPORT. Runs over a stream, byte by byte, each by its effect (00_scope.md R12). -/

namespace Sys2Proof.Machine

variable {s t u : State} {b : Byte} {e : Option Event} {es es' : List Event} {S S' : List Byte}

theorem run_cons (hb : ByteStep s b t e) (hr : run t S = some (u, es)) : run s (b :: S) = some (u, e.toList ++ es) := by
  simp [run, hb.xspStep_eq, hr]

theorem run_single (hb : ByteStep s b t e) : run s [b] = some (t, e.toList) := by
  simpa using run_cons (S := []) (es := []) hb rfl

/-- The run over a stream exists: every byte has an effect. -/
theorem exists_run (s : State) (S : List Byte) : ∃ t es, run s S = some (t, es) := by
  induction S generalizing s with
  | nil => exact ⟨s, [], rfl⟩
  | cons b S ih =>
    obtain ⟨t, e, hb⟩ := exists_byteStep s b
    obtain ⟨u, es, hr⟩ := ih t
    exact ⟨u, _, run_cons hb hr⟩

theorem run_append (h : run s S = some (t, es)) (h' : run t S' = some (u, es')) :
    run s (S ++ S') = some (u, es ++ es') := by
  induction S generalizing s es with
  | nil =>
    cases h
    exact h'
  | cons b S ih =>
    obtain ⟨t₁, e, hb⟩ := exists_byteStep s b
    obtain ⟨t₂, es₁, hr⟩ := exists_run t₁ S
    cases (run_cons hb hr).symm.trans h
    rw [List.cons_append, run_cons hb (ih hr), List.append_assoc]

/-- A stall (40_synchronizer.md section 3): after the bytes `buf`, no marker ends at any byte of the stream. -/
def Stall (buf S : List Byte) : Prop :=
  ∀ p, buf.length ≤ p → ¬ markerEndsAt Config.ftr (buf ++ S) p ∧ ¬ markerEndsAt Config.hdr (buf ++ S) p

variable {buf : List Byte}

/-- The first byte of a stall completes no marker. -/
theorem Stall.head (h : Stall buf (b :: S)) :
    (¬ ∃ before, buf ++ [b] = before ++ Config.ftr) ∧ (¬ ∃ before, buf ++ [b] = before ++ Config.hdr) := by
  have hlt : buf.length < (buf ++ [b]).length := by simp
  obtain ⟨hftr, hhdr⟩ := h buf.length le_rfl
  rw [List.append_cons, markerEndsAt_append rfl hlt, markerEndsAt_last rfl] at hftr hhdr
  exact ⟨hftr, hhdr⟩

/-- The rest of a stall is a stall after its first byte. -/
theorem Stall.tail (h : Stall buf (b :: S)) : Stall (buf ++ [b]) S := by
  intro p hp
  rw [List.append_assoc]
  exact h p (by rw [List.length_append] at hp; omega)

/-- A marker that ends at a byte of the stream has its last byte there. -/
theorem mem_of_markerEndsAt {m : List Byte} {p : Nat} {x : Byte} (hm : m.length = 4) (hx : m.getLast? = some x)
    (hp : buf.length ≤ p) (h : markerEndsAt m (buf ++ S) p) : x ∈ S := by
  obtain ⟨hlt, before, htake⟩ := (markerEndsAt_iff hm).mp h
  rw [List.length_append] at hlt
  rw [List.take_append, List.take_of_length_le (by omega)] at htake
  have hne : S.take (p + 1 - buf.length) ≠ [] := List.ne_nil_of_length_pos (by rw [List.length_take]; omega)
  have hlast : (S.take (p + 1 - buf.length)).getLast? = some x := by
    rw [← List.getLast?_append_of_ne_nil buf hne, htake, List.getLast?_append, hx, Option.some_or]
  exact List.mem_of_mem_take (List.mem_of_getLast? hlast)

theorem stall_of_last_bytes (hS : ∀ x ∈ S, x ≠ Config.ftrLast ∧ x ≠ Config.hdrLast) : Stall buf S := fun _ hp =>
  ⟨fun h => (hS _ (mem_of_markerEndsAt (m := Config.ftr) rfl rfl hp h)).1 rfl,
    fun h => (hS _ (mem_of_markerEndsAt (m := Config.hdr) rfl rfl hp h)).2 rfl⟩

/-- The footer's last byte after the others closes the frame. -/
theorem exists_byteStep_footer (s : State) (before : List Byte) (hbuf : s.buf = before ++ [0x40, 0x30, 0x20]) :
    ∃ e, Emits (runDecode · (before ++ Config.ftr)) e ∧
      ByteStep s 0x10 { s with buf := [], sensors := e.applyTo s.sensors } (some e) := by
  have hend : s.buf ++ [0x10] = before ++ Config.ftr := by simp [hbuf, Config.ftr]
  obtain ⟨e, hfrom, hemits⟩ := runDecode_emits (before ++ Config.ftr)
  rw [← hend] at hfrom hemits ⊢
  exact ⟨e, hemits, .footer ⟨before, hend⟩ hfrom hemits⟩

/-- A clean frame is a body between the markers. -/
theorem CleanFrame.eq_betweenMarkers {F : List Byte} (h : CleanFrame F) : ∃ body, F = betweenMarkers body := by
  have hhdr : F = Config.hdr ++ F.drop 4 := by rw [← h.header, List.take_append_drop]
  obtain ⟨hlt, before, hftr⟩ := (markerEndsAt_iff rfl).mp h.footer
  rw [List.take_of_length_le (by omega)] at hftr
  exact betweenMarkers_of_good (headerBad_eq_false_iff.mpr ⟨_, hhdr⟩) (footerBad_eq_false_iff.mpr ⟨_, hftr⟩)

/-- After its header a clean frame is a stall up to its last byte. -/
theorem CleanFrame.stall {body : List Byte} (h : CleanFrame (betweenMarkers body)) :
    Stall Config.hdr (body ++ [0x40, 0x30, 0x20]) := by
  have hF : betweenMarkers body = (Config.hdr ++ (body ++ [0x40, 0x30, 0x20])) ++ [0x10] := by
    simp [betweenMarkers, Config.ftr]
  have hends : ∀ {m : List Byte} {p : Nat}, m.length = 4 →
      markerEndsAt m (Config.hdr ++ (body ++ [0x40, 0x30, 0x20])) p →
      markerEndsAt m (betweenMarkers body) p ∧ p + 1 < (betweenMarkers body).length := fun hm hp =>
    ⟨hF ▸ (markerEndsAt_append hm hp.2.1).mpr hp, by
      have := hp.2.1
      rw [hF, List.length_append, List.length_singleton]
      omega⟩
  refine fun p hp4 => ⟨fun hp => ?_, fun hp => ?_⟩
  · obtain ⟨hend, hlt⟩ := hends rfl hp
    have := h.only_footer p hend
    omega
  · obtain ⟨hend, _⟩ := hends rfl hp
    have := h.only_header p hend
    rw [hdr_length] at hp4
    omega

theorem core_run_succ (h : step s = .next t) (k : Nat) :
    Host.Core.run core (k + 1) (show State from s) = Host.Core.run core k (show State from t) := by
  have hcore : core.step s = .next t := h
  simp only [Host.Core.run, hcore]

theorem watch_succ {k : Nat} (h : step s = .next t) (hw : t.watch k = some (u, es)) :
    s.watch (k + 1) = some (u, t.event.toList ++ es) := by
  simp [State.watch, h, hw]

theorem event_of_outputOf (h : s.out = outputOf e) : s.event = e := by
  cases e with
  | none => simp [State.event, h, outputOf]
  | some e => exact event_of_out h

/-- With a stream presented, the machine's steps are the run's, and the consumer receives its events: the state is followed
from any last output. -/
theorem run_host {S : List Byte} (h : run s S = some (t, es)) (rest : List HostInput) (o₀ : Output) : ∃ o,
    Host.Core.run core S.length { s with input := S.map .byte ++ rest, out := o₀ } =
      .next { t with input := rest, out := o } ∧
    State.watch { s with input := S.map .byte ++ rest, out := o₀ } S.length =
      some ({ t with input := rest, out := o }, es) ∧
    (S = [] → o = o₀) ∧ (S ≠ [] → o = .silent ∨ ∃ e, o = .event e ∧ es.getLast? = some e) := by
  induction S generalizing s es o₀ with
  | nil =>
    cases h
    exact ⟨o₀, rfl, rfl, fun _ => rfl, fun hne => absurd rfl hne⟩
  | cons b S ih =>
    obtain ⟨u, e, hb⟩ := exists_byteStep s b
    obtain ⟨_, es₁, hr⟩ := exists_run u S
    cases (run_cons hb hr).symm.trans h
    have hstep := hb.step_eq (S.map .byte ++ rest) o₀
    obtain ⟨o, hrun, hwatch, hnil, hcons⟩ := ih hr (outputOf e)
    refine ⟨o, ?_, ?_, fun hne => (List.cons_ne_nil _ _ hne).elim, fun _ => ?_⟩
    · exact (core_run_succ hstep _).trans hrun
    · exact (watch_succ hstep hwatch).trans (by rw [event_of_outputOf rfl])
    · cases S with
      | nil =>
        cases hr
        rw [hnil rfl]
        cases e with
        | none => exact .inl rfl
        | some e => exact .inr ⟨e, rfl, rfl⟩
      | cons c S =>
        obtain ho | ⟨e', ho, hlast⟩ := hcons (by simp)
        · exact .inl ho
        · exact .inr ⟨e', ho, by rw [List.getLast?_append, hlast, Option.some_or]⟩

end Sys2Proof.Machine
end

section
/-! Streams (00_scope.md section 5, 40_synchronizer.md). -/

namespace Sys2Proof.Machine

/-- Settles O47: both runs exist and join. -/
theorem runOfAConcatenation : Obligations.RunOfAConcatenation := by
  intro s S₁ S₂
  obtain ⟨t₁, e₁, h₁⟩ := exists_run s S₁
  obtain ⟨t₂, e₂, h₂⟩ := exists_run t₁ S₂
  exact ⟨t₁, t₂, e₁, e₂, h₁, h₂, run_append h₁ h₂⟩

/-- Settles O52, by induction on the stream: each byte accumulates, and the rest is a stall from the longer buffer. -/
theorem stallOnlyAccumulates : Obligations.StallOnlyAccumulates := by
  intro s S hroom hS
  induction S generalizing s with
  | nil => simp [run]
  | cons b S ih =>
    rw [belowCapacity_iff] at hroom
    obtain ⟨hftr, hhdr⟩ := Stall.head hS
    have hb : ByteStep s b { s with buf := s.buf ++ [b] } none :=
      .accum hftr hhdr fun n hn => by
        have := hroom n hn
        simp only [List.length_cons] at this
        omega
    have hrest := ih { s with buf := s.buf ++ [b] } (belowCapacity_iff.mpr fun n hn => by
        have := hroom n hn
        simp only [List.length_cons, List.length_append, List.length_nil] at this ⊢
        omega) (Stall.tail hS)
    simpa using run_cons hb hrest

/-- Settles O53, by induction on the stream: the first byte overflows, or it accumulates and the rest is such a stream. -/
theorem stallEndsInOverflow : Obligations.StallEndsInOverflow := by
  intro s n S hmax hne hlen hS
  induction S generalizing s with
  | nil => exact absurd rfl hne
  | cons b S ih =>
    obtain ⟨hftr, hhdr⟩ := Stall.head hS
    simp only [List.length_cons] at hlen ⊢
    by_cases hfull : n ≤ s.buf.length + 1
    · exact ⟨1, le_rfl, by omega, by omega, run_single (.overflow hftr hhdr hmax hfull)⟩
    · have hb : ByteStep s b { s with buf := s.buf ++ [b] } none :=
        .accum hftr hhdr fun m hm => by
          cases hmax.symm.trans hm
          omega
      have hne' : S ≠ [] := by
        rintro rfl
        simp at hlen
        omega
      obtain ⟨k, hk, hkS, hkn, hrun⟩ := ih { s with buf := s.buf ++ [b] } hmax hne' (by simp; omega) (Stall.tail hS)
      refine ⟨k + 1, by omega, by omega, fun _ => ?_, ?_⟩
      · simp only [List.length_append, List.length_singleton] at hkn
        omega
      · simpa using run_cons hb hrun

/-- Settles O49: three bytes of the footer complete nothing, and the fourth closes whatever was accumulated. -/
theorem footerBytesAlwaysClose : Obligations.FooterBytesAlwaysClose := by
  intro s hroom
  have hstall : run s [0x40, 0x30, 0x20] = some ({ s with buf := s.buf ++ [0x40, 0x30, 0x20] }, []) :=
    stallOnlyAccumulates s _ hroom (stall_of_last_bytes (by decide))
  obtain ⟨e, hemits, hclose⟩ := exists_byteStep_footer { s with buf := s.buf ++ [0x40, 0x30, 0x20] } s.buf rfl
  exact ⟨_, hemits s.sensors, run_append hstall (run_single hclose)⟩

/-- Settles O50: three bytes of the header complete nothing, and the fourth discards whatever was accumulated. -/
theorem headerBytesAlwaysResync : Obligations.HeaderBytesAlwaysResync := by
  intro s hroom
  have hstall : run s [0x01, 0x02, 0x03] = some ({ s with buf := s.buf ++ [0x01, 0x02, 0x03] }, []) :=
    stallOnlyAccumulates s _ hroom (stall_of_last_bytes (by decide))
  have hresync : ByteStep { s with buf := s.buf ++ [0x01, 0x02, 0x03] } 0x04 { s with buf := Config.hdr } none :=
    .header ⟨s.buf, by simp [Config.hdr]⟩
  exact run_append hstall (run_single hresync)

/-- Settles O51: the header discards what was there, the frame up to its last byte is a stall after it, and that byte
closes the frame. -/
theorem cleanMessagesAreReceivedWhole : Obligations.CleanMessagesAreReceivedWhole := by
  intro s F hclean hroom hfit
  obtain ⟨body, rfl⟩ := hclean.eq_betweenMarkers
  have hF : betweenMarkers body = (Config.hdr ++ (body ++ [0x40, 0x30, 0x20])) ++ [0x10] := by
    simp [betweenMarkers, Config.ftr]
  have hresync : run s Config.hdr = some ({ s with buf := Config.hdr }, []) := headerBytesAlwaysResync s hroom
  have hstall : run { s with buf := Config.hdr } (body ++ [0x40, 0x30, 0x20]) =
      some ({ s with buf := Config.hdr ++ (body ++ [0x40, 0x30, 0x20]) }, []) :=
    stallOnlyAccumulates _ _ (belowCapacity_iff.mpr fun n hn => by
      have := hfit n hn
      simp at this ⊢
      omega) hclean.stall
  obtain ⟨e, hemits, hclose⟩ := exists_byteStep_footer
    { s with buf := Config.hdr ++ (body ++ [0x40, 0x30, 0x20]) } (Config.hdr ++ body) (by simp)
  refine ⟨_, hemits s.sensors, ?_⟩
  rw [hF]
  exact run_append (run_append hresync hstall) (run_single hclose)

/-- Settles O48: the run's state and events are the machine's, from the output the state has. -/
theorem hostRunIsTheSpecRun : Obligations.HostRunIsTheSpecRun := by
  intro s S rest
  obtain ⟨t, es, h⟩ := exists_run s S
  obtain ⟨o, hrun, hwatch, hnil, hcons⟩ := run_host h rest s.out
  exact ⟨t, es, o, h, hrun, hwatch, hnil, hcons⟩

end Sys2Proof.Machine
end
